-- ==== Sys2Proof/Word.lean ====
section
/-! DEFINITION. The two word types of the hardware (00_scope.md R6): the byte the bus moves and the
16-bit word of addresses, `pc` and `sp`. -/

namespace Sys2Proof

/-- An unsigned 8-bit value: a register, a memory cell, an immediate (`u8`, 00_scope.md R8). -/
abbrev Byte := BitVec 8

/-- An unsigned 16-bit value: an address, `pc`, `sp`, a register pair (`u16`, 00_scope.md R8). -/
abbrev Word := BitVec 16

end Sys2Proof
end

