-- ==== Sys2Proof/Config.lean ====
section
/-! DEFINITION. The fixed parameters of the hardware (00_scope.md R6). The parameters that the launch
chooses (00_scope.md R7) are the fields of `Launch` in Machine/State.lean. The spec leaves no value
undefined (70_reset_and_hazards.md R248), so there is no free value here. -/

namespace Sys2Proof.Config

/-- The prefix byte of the second opcode page (30_encoding.md R60). -/
def prefixByte : Byte := 0xCB

/-- Cycles charged for an interrupt dispatch, `DISPATCH_COST` (00_scope.md R6). -/
def dispatchCost : Nat := 20

/-- `OAM_CYCLES` (00_scope.md R6). -/
def oamCycles : Nat := 80

/-- `TRANSFER_CYCLES` (00_scope.md R6). -/
def transferCycles : Nat := 172

/-- `LINE_CYCLES` (00_scope.md R6). -/
def lineCycles : Nat := 456

/-- `VISIBLE_LINES` (00_scope.md R6). -/
def visibleLines : Nat := 144

/-- `VBLANK_LINES` (00_scope.md R6). -/
def vblankLines : Nat := 10

/-- The interrupt-enable cell IE (00_scope.md R6). -/
def ieAddr : Word := 0xFFFF

/-- The interrupt-flag cell IF (00_scope.md R6). -/
def ifAddr : Word := 0xFF0F

/-- The display-control cell LCDC (00_scope.md R6). -/
def lcdcAddr : Word := 0xFF40

/-- The input cell (00_scope.md R6). -/
def inputAddr : Word := 0xFF00

/-- The largest cartridge the address map reaches (00_scope.md R7, 20_memory.md R38). -/
def cartMax : Nat := 0x8000

/-- The size of the boot ROM (00_scope.md R7). -/
def bootSize : Nat := 0x100

/-- The size of each of the stores `vram`, `eram`, `wram` (10_state.md R21). -/
def ramSize : Nat := 0x2000

/-- The size of each of the stores `io` and `hram` (10_state.md R21). -/
def pageSize : Nat := 0x7F

end Sys2Proof.Config
end

