-- ==== Sys2Proof/Machine/Bits.lean ====
section
/-! DEFINITION. The bit-field, extension and byte-order helpers of the notation (00_scope.md R8). -/

namespace Sys2Proof.Machine

/-- `hi8(w) = w[15:8]` (00_scope.md R8). -/
def hi8 (w : Word) : Byte := w.extractLsb' 8 8

/-- `lo8(w) = w[7:0]` (00_scope.md R8). -/
def lo8 (w : Word) : Byte := w.extractLsb' 0 8

/-- `hi ++ lo`, the first operand in the high bits (00_scope.md R8). -/
def cat (hi lo : Byte) : Word := hi ++ lo

/-- `zext_16(v)` (00_scope.md R8). -/
def zext16 (v : Byte) : Word := v.setWidth 16

/-- `sext_16(v)`: two's complement, modulo 2^16 (00_scope.md R8). -/
def sext16 (v : Byte) : Word := v.signExtend 16

/-- A flag as the integer 0 or 1, for the sums of the flag formulas (43_ext_alu8.md R131). -/
def bit (b : Bool) : Nat := if b then 1 else 0

end Sys2Proof.Machine
end

