-- ==== Sys2Proof/Syntax.lean ====
section
/-! DEFINITION. The instructions as syntax: one constructor of `Instr` per row of
spec/opcode_table.json (30_encoding.md R70, R72, R76), the thirteen ILLEGAL rows included. -/

namespace Sys2Proof

/-- The 8-bit operand code `r8` (30_encoding.md R63). `mhl` is code 6, the byte at the address in `HL`. -/
inductive R8
  | b | c | d | e | h | l | mhl | a
  deriving DecidableEq, Repr

/-- The 16-bit operand code of table SP (30_encoding.md R64): LD rr,n16, INC rr, DEC rr, ADD HL,rr. -/
inductive PairSp
  | bc | de | hl | sp
  deriving DecidableEq, Repr

/-- The 16-bit operand code of table AF (30_encoding.md R64): PUSH and POP. -/
inductive PairAf
  | bc | de | hl | af
  deriving DecidableEq, Repr

/-- The condition code `cc` (30_encoding.md R65). -/
inductive Cond
  | nz | z | nc | c
  deriving DecidableEq, Repr

/-- The instruction key: `(0, opcode)`, or `(0xCB, opcode)` when `prefixed` (30_encoding.md R60). -/
structure Key where
  prefixed : Bool
  opcode : Byte
  deriving DecidableEq, Repr

/-- The group of a dispatch-table row (30_encoding.md R69, R76). -/
inductive Group
  | s | x | unassigned
  deriving DecidableEq, Repr

/-- One constructor per row of spec/opcode_table.json, in the table's order. Immediates are the raw
bytes of 30_encoding.md R68: `n8` and `e8` as a byte, `n16` as the assembled word. -/
inductive Instr
  | nop
  | ldRrN16 (rr : PairSp) (n : Word)
  | ldBcA
  | ldDeA
  | ldHliA
  | ldHldA
  | incRr (rr : PairSp)
  | incR8 (r : R8)
  | decR8 (r : R8)
  | ldRN8 (dst : R8) (n : Byte)
  | ldHlN8 (n : Byte)
  | rlca
  | rrca
  | rla
  | rra
  | ldN16Sp (n : Word)
  | addHlRr (rr : PairSp)
  | ldABc
  | ldADe
  | ldAHli
  | ldAHld
  | decRr (rr : PairSp)
  | illegal10
  | jrE8 (e : Byte)
  | jrCcE8 (cc : Cond) (e : Byte)
  | daa
  | cpl
  | scf
  | ccf
  | ldRR (dst src : R8)
  | ldRHl (dst : R8)
  | ldHlR (src : R8)
  | illegal76
  | addAR8 (r : R8)
  | adcAR8 (r : R8)
  | subAR8 (r : R8)
  | sbcAR8 (r : R8)
  | andAR8 (r : R8)
  | xorAR8 (r : R8)
  | orAR8 (r : R8)
  | cpAR8 (r : R8)
  | retCc (cc : Cond)
  | popRr (rr : PairAf)
  | jpCcN16 (cc : Cond) (n : Word)
  | jpN16 (n : Word)
  | callCcN16 (cc : Cond) (n : Word)
  | pushRr (rr : PairAf)
  | addAN8 (n : Byte)
  | adcAN8 (n : Byte)
  | subAN8 (n : Byte)
  | sbcAN8 (n : Byte)
  | andAN8 (n : Byte)
  | xorAN8 (n : Byte)
  | orAN8 (n : Byte)
  | cpAN8 (n : Byte)
  | rstT (t : BitVec 3)
  | ret
  | callN16 (n : Word)
  | reti
  | ldhN8A (n : Byte)
  | ldhAN8 (n : Byte)
  | ldhCA
  | ldhAC
  | addSpE8 (e : Byte)
  | jpHl
  | ldN16A (n : Word)
  | ldAN16 (n : Word)
  | di
  | ei
  | ldHlSpE8 (e : Byte)
  | ldSpHl
  | illegalD3
  | illegalDB
  | illegalDD
  | illegalE3
  | illegalE4
  | illegalEB
  | illegalEC
  | illegalED
  | illegalF4
  | illegalFC
  | illegalFD
  | rlcR8 (r : R8)
  | rrcR8 (r : R8)
  | rlR8 (r : R8)
  | rrR8 (r : R8)
  | slaR8 (r : R8)
  | sraR8 (r : R8)
  | swapR8 (r : R8)
  | srlR8 (r : R8)
  | bitBR8 (b : BitVec 3) (r : R8)
  | resBR8 (b : BitVec 3) (r : R8)
  | setBR8 (b : BitVec 3) (r : R8)
  deriving DecidableEq, Repr

end Sys2Proof
end

