-- ==== Sys2Proof/WellFormed.lean ====
section
/-! DEFINITION. Which instruction terms stand for an encoding. Every operand type of `Instr` admits
exactly the values its field may take, but for the four loads whose register field excludes code 6
(30_encoding.md R70: `ddd != 6`, `sss != 6`). -/

namespace Sys2Proof

/-- Whether the term has an encoding: LD r,n8, LD r,r', LD r,(HL) and LD (HL),r take no `(HL)` in a
register field (41_ext_load8.md R100 to R103); no other row excludes a value. -/
def Instr.wellFormed (i : Instr) : Bool :=
  match i with
  | .ldRN8 dst _ => dst != .mhl
  | .ldRR dst src => dst != .mhl && src != .mhl
  | .ldRHl dst => dst != .mhl
  | .ldHlR src => src != .mhl
  | .nop | .ldRrN16 _ _ | .ldBcA | .ldDeA | .ldHliA | .ldHldA | .incRr _ | .incR8 _ | .decR8 _
  | .ldHlN8 _ | .rlca | .rrca | .rla | .rra | .ldN16Sp _ | .addHlRr _ | .ldABc | .ldADe | .ldAHli
  | .ldAHld | .decRr _ | .illegal10 | .jrE8 _ | .jrCcE8 _ _ | .daa | .cpl | .scf | .ccf
  | .illegal76 | .addAR8 _ | .adcAR8 _ | .subAR8 _ | .sbcAR8 _ | .andAR8 _ | .xorAR8 _ | .orAR8 _
  | .cpAR8 _ | .retCc _ | .popRr _ | .jpCcN16 _ _ | .jpN16 _ | .callCcN16 _ _ | .pushRr _
  | .addAN8 _ | .adcAN8 _ | .subAN8 _ | .sbcAN8 _ | .andAN8 _ | .xorAN8 _ | .orAN8 _ | .cpAN8 _
  | .rstT _ | .ret | .callN16 _ | .reti | .ldhN8A _ | .ldhAN8 _ | .ldhCA | .ldhAC | .addSpE8 _
  | .jpHl | .ldN16A _ | .ldAN16 _ | .di | .ei | .ldHlSpE8 _ | .ldSpHl | .illegalD3 | .illegalDB
  | .illegalDD | .illegalE3 | .illegalE4 | .illegalEB | .illegalEC | .illegalED | .illegalF4
  | .illegalFC | .illegalFD | .rlcR8 _ | .rrcR8 _ | .rlR8 _ | .rrR8 _ | .slaR8 _ | .sraR8 _
  | .swapR8 _ | .srlR8 _ | .bitBR8 _ _ | .resBR8 _ _ | .setBR8 _ _ => true

end Sys2Proof
end

