-- ==== Sys2Proof/Decode.lean ====
section
/-! DEFINITION. The dispatch table as rows of mask, pattern and excluded field values
(30_encoding.md R70, R72, R76), the decoder that reads it, and after it the encoder, written from
the bit patterns of the same rules. -/

namespace Sys2Proof

open Machine (cat hi8 lo8)

/-! ### Fields of the opcode byte (30_encoding.md R62) -/

/-- Field `y = op[5:3]`. -/
def fieldY (op : Byte) : BitVec 3 := op.extractLsb' 3 3

/-- Field `z = op[2:0]`. -/
def fieldZ (op : Byte) : BitVec 3 := op.extractLsb' 0 3

/-- Field `p = op[5:4]`. -/
def fieldP (op : Byte) : BitVec 2 := op.extractLsb' 4 2

/-- Field `cc = op[4:3]`. -/
def fieldCc (op : Byte) : BitVec 2 := op.extractLsb' 3 2

/-- The operand of an `r8` code (30_encoding.md R63); the last arm is code 7. -/
def R8.ofCode (code : BitVec 3) : R8 :=
  match code.toNat with
  | 0 => .b | 1 => .c | 2 => .d | 3 => .e | 4 => .h | 5 => .l | 6 => .mhl | _ => .a

/-- The pair of an `rr` code of table SP (30_encoding.md R64); the last arm is code 3. -/
def PairSp.ofCode (code : BitVec 2) : PairSp :=
  match code.toNat with
  | 0 => .bc | 1 => .de | 2 => .hl | _ => .sp

/-- The pair of an `rr` code of table AF (30_encoding.md R64); the last arm is code 3. -/
def PairAf.ofCode (code : BitVec 2) : PairAf :=
  match code.toNat with
  | 0 => .bc | 1 => .de | 2 => .hl | _ => .af

/-- The condition of a `cc` code (30_encoding.md R65); the last arm is code 3. -/
def Cond.ofCode (code : BitVec 2) : Cond :=
  match code.toNat with
  | 0 => .nz | 1 => .z | 2 => .nc | _ => .c

/-! ### The dispatch table -/

/-- An instruction still waiting for its operand bytes (the formats of 30_encoding.md R61): `op` and
`CB_OP` wait for none, `opN8` (also `OP_E8`) for one byte, `opN16` for the low and the high byte of `n16`. -/
inductive Form
  | op (i : Instr)
  | opN8 (mk : Byte → Instr)
  | opN16 (mk : Word → Instr)

/-- One row of the dispatch table: it matches an opcode byte `b` when `b & mask == pattern` and the
field values of `b` are allowed (30_encoding.md R76). -/
structure Row where
  pattern : Byte
  mask : Byte
  allowed : Byte → Bool
  group : Group
  form : Byte → Form

/-- The match test of 30_encoding.md R76. -/
def Row.matchesByte (r : Row) (b : Byte) : Bool := b &&& r.mask == r.pattern && r.allowed b

/-- No field value is excluded. -/
def anyField (_ : Byte) : Bool := true

/-- `ddd != 6` (30_encoding.md R70). -/
def dNotMem (b : Byte) : Bool := fieldY b != 6

/-- `sss != 6` (30_encoding.md R70). -/
def sNotMem (b : Byte) : Bool := fieldZ b != 6

/-- The `r8` operand in field `y`. -/
def opndY (b : Byte) : R8 := .ofCode (fieldY b)

/-- The `r8` operand in field `z`. -/
def opndZ (b : Byte) : R8 := .ofCode (fieldZ b)

/-- The pair of table SP in field `p`. -/
def opndSp (b : Byte) : PairSp := .ofCode (fieldP b)

/-- The pair of table AF in field `p`. -/
def opndAf (b : Byte) : PairAf := .ofCode (fieldP b)

/-- The condition in field `cc`. -/
def opndCc (b : Byte) : Cond := .ofCode (fieldCc b)

/-- Rows with `x = op[7:6] = 0` (30_encoding.md R70), first half. -/
def mainRows0a : List Row :=
  [ ⟨0x00, 0xFF, anyField, .s, fun _ => .op .nop⟩,
    ⟨0x01, 0xCF, anyField, .x, fun b => .opN16 (.ldRrN16 (opndSp b))⟩,
    ⟨0x02, 0xFF, anyField, .x, fun _ => .op .ldBcA⟩,
    ⟨0x12, 0xFF, anyField, .x, fun _ => .op .ldDeA⟩,
    ⟨0x22, 0xFF, anyField, .x, fun _ => .op .ldHliA⟩,
    ⟨0x32, 0xFF, anyField, .x, fun _ => .op .ldHldA⟩,
    ⟨0x03, 0xCF, anyField, .x, fun b => .op (.incRr (opndSp b))⟩,
    ⟨0x04, 0xC7, anyField, .s, fun b => .op (.incR8 (opndY b))⟩,
    ⟨0x05, 0xC7, anyField, .s, fun b => .op (.decR8 (opndY b))⟩,
    ⟨0x06, 0xC7, dNotMem, .x, fun b => .opN8 (.ldRN8 (opndY b))⟩,
    ⟨0x36, 0xFF, anyField, .x, fun _ => .opN8 .ldHlN8⟩,
    ⟨0x07, 0xFF, anyField, .x, fun _ => .op .rlca⟩,
    ⟨0x0F, 0xFF, anyField, .x, fun _ => .op .rrca⟩,
    ⟨0x17, 0xFF, anyField, .x, fun _ => .op .rla⟩,
    ⟨0x1F, 0xFF, anyField, .x, fun _ => .op .rra⟩ ]

/-- Rows with `x = op[7:6] = 0` (30_encoding.md R70), second half. -/
def mainRows0b : List Row :=
  [ ⟨0x08, 0xFF, anyField, .x, fun _ => .opN16 .ldN16Sp⟩,
    ⟨0x09, 0xCF, anyField, .x, fun b => .op (.addHlRr (opndSp b))⟩,
    ⟨0x0A, 0xFF, anyField, .x, fun _ => .op .ldABc⟩,
    ⟨0x1A, 0xFF, anyField, .x, fun _ => .op .ldADe⟩,
    ⟨0x2A, 0xFF, anyField, .x, fun _ => .op .ldAHli⟩,
    ⟨0x3A, 0xFF, anyField, .x, fun _ => .op .ldAHld⟩,
    ⟨0x0B, 0xCF, anyField, .x, fun b => .op (.decRr (opndSp b))⟩,
    ⟨0x10, 0xFF, anyField, .unassigned, fun _ => .op .illegal10⟩,
    ⟨0x18, 0xFF, anyField, .x, fun _ => .opN8 .jrE8⟩,
    ⟨0x20, 0xE7, anyField, .x, fun b => .opN8 (.jrCcE8 (opndCc b))⟩,
    ⟨0x27, 0xFF, anyField, .x, fun _ => .op .daa⟩,
    ⟨0x2F, 0xFF, anyField, .x, fun _ => .op .cpl⟩,
    ⟨0x37, 0xFF, anyField, .x, fun _ => .op .scf⟩,
    ⟨0x3F, 0xFF, anyField, .x, fun _ => .op .ccf⟩ ]

/-- Rows with `x = op[7:6] = 1` (30_encoding.md R70). -/
def mainRows1 : List Row :=
  [ ⟨0x40, 0xC0, fun b => dNotMem b && sNotMem b, .x, fun b => .op (.ldRR (opndY b) (opndZ b))⟩,
    ⟨0x46, 0xC7, dNotMem, .x, fun b => .op (.ldRHl (opndY b))⟩,
    ⟨0x70, 0xF8, sNotMem, .x, fun b => .op (.ldHlR (opndZ b))⟩,
    ⟨0x76, 0xFF, anyField, .unassigned, fun _ => .op .illegal76⟩ ]

/-- Rows with `x = op[7:6] = 2` (30_encoding.md R66, R70). -/
def mainRows2 : List Row :=
  [ ⟨0x80, 0xF8, anyField, .x, fun b => .op (.addAR8 (opndZ b))⟩,
    ⟨0x88, 0xF8, anyField, .x, fun b => .op (.adcAR8 (opndZ b))⟩,
    ⟨0x90, 0xF8, anyField, .x, fun b => .op (.subAR8 (opndZ b))⟩,
    ⟨0x98, 0xF8, anyField, .x, fun b => .op (.sbcAR8 (opndZ b))⟩,
    ⟨0xA0, 0xF8, anyField, .x, fun b => .op (.andAR8 (opndZ b))⟩,
    ⟨0xA8, 0xF8, anyField, .s, fun b => .op (.xorAR8 (opndZ b))⟩,
    ⟨0xB0, 0xF8, anyField, .x, fun b => .op (.orAR8 (opndZ b))⟩,
    ⟨0xB8, 0xF8, anyField, .s, fun b => .op (.cpAR8 (opndZ b))⟩ ]

/-- Rows with `x = op[7:6] = 3` (30_encoding.md R70), first half. -/
def mainRows3a : List Row :=
  [ ⟨0xC0, 0xE7, anyField, .x, fun b => .op (.retCc (opndCc b))⟩,
    ⟨0xC1, 0xCF, anyField, .s, fun b => .op (.popRr (opndAf b))⟩,
    ⟨0xC2, 0xE7, anyField, .x, fun b => .opN16 (.jpCcN16 (opndCc b))⟩,
    ⟨0xC3, 0xFF, anyField, .s, fun _ => .opN16 .jpN16⟩,
    ⟨0xC4, 0xE7, anyField, .x, fun b => .opN16 (.callCcN16 (opndCc b))⟩,
    ⟨0xC5, 0xCF, anyField, .s, fun b => .op (.pushRr (opndAf b))⟩,
    ⟨0xC6, 0xFF, anyField, .x, fun _ => .opN8 .addAN8⟩,
    ⟨0xCE, 0xFF, anyField, .x, fun _ => .opN8 .adcAN8⟩,
    ⟨0xD6, 0xFF, anyField, .x, fun _ => .opN8 .subAN8⟩,
    ⟨0xDE, 0xFF, anyField, .x, fun _ => .opN8 .sbcAN8⟩,
    ⟨0xE6, 0xFF, anyField, .x, fun _ => .opN8 .andAN8⟩,
    ⟨0xEE, 0xFF, anyField, .s, fun _ => .opN8 .xorAN8⟩,
    ⟨0xF6, 0xFF, anyField, .x, fun _ => .opN8 .orAN8⟩,
    ⟨0xFE, 0xFF, anyField, .s, fun _ => .opN8 .cpAN8⟩,
    ⟨0xC7, 0xC7, anyField, .x, fun b => .op (.rstT (fieldY b))⟩ ]

/-- Rows with `x = op[7:6] = 3` (30_encoding.md R70), second half. -/
def mainRows3b : List Row :=
  [ ⟨0xC9, 0xFF, anyField, .s, fun _ => .op .ret⟩,
    ⟨0xCD, 0xFF, anyField, .s, fun _ => .opN16 .callN16⟩,
    ⟨0xD9, 0xFF, anyField, .x, fun _ => .op .reti⟩,
    ⟨0xE0, 0xFF, anyField, .x, fun _ => .opN8 .ldhN8A⟩,
    ⟨0xF0, 0xFF, anyField, .x, fun _ => .opN8 .ldhAN8⟩,
    ⟨0xE2, 0xFF, anyField, .x, fun _ => .op .ldhCA⟩,
    ⟨0xF2, 0xFF, anyField, .x, fun _ => .op .ldhAC⟩,
    ⟨0xE8, 0xFF, anyField, .x, fun _ => .opN8 .addSpE8⟩,
    ⟨0xE9, 0xFF, anyField, .x, fun _ => .op .jpHl⟩,
    ⟨0xEA, 0xFF, anyField, .x, fun _ => .opN16 .ldN16A⟩,
    ⟨0xFA, 0xFF, anyField, .x, fun _ => .opN16 .ldAN16⟩,
    ⟨0xF3, 0xFF, anyField, .s, fun _ => .op .di⟩,
    ⟨0xFB, 0xFF, anyField, .s, fun _ => .op .ei⟩,
    ⟨0xF8, 0xFF, anyField, .x, fun _ => .opN8 .ldHlSpE8⟩,
    ⟨0xF9, 0xFF, anyField, .x, fun _ => .op .ldSpHl⟩ ]

/-- The eleven bytes the family leaves unassigned (30_encoding.md R71). -/
def mainRowsUnassigned : List Row :=
  [ ⟨0xD3, 0xFF, anyField, .unassigned, fun _ => .op .illegalD3⟩,
    ⟨0xDB, 0xFF, anyField, .unassigned, fun _ => .op .illegalDB⟩,
    ⟨0xDD, 0xFF, anyField, .unassigned, fun _ => .op .illegalDD⟩,
    ⟨0xE3, 0xFF, anyField, .unassigned, fun _ => .op .illegalE3⟩,
    ⟨0xE4, 0xFF, anyField, .unassigned, fun _ => .op .illegalE4⟩,
    ⟨0xEB, 0xFF, anyField, .unassigned, fun _ => .op .illegalEB⟩,
    ⟨0xEC, 0xFF, anyField, .unassigned, fun _ => .op .illegalEC⟩,
    ⟨0xED, 0xFF, anyField, .unassigned, fun _ => .op .illegalED⟩,
    ⟨0xF4, 0xFF, anyField, .unassigned, fun _ => .op .illegalF4⟩,
    ⟨0xFC, 0xFF, anyField, .unassigned, fun _ => .op .illegalFC⟩,
    ⟨0xFD, 0xFF, anyField, .unassigned, fun _ => .op .illegalFD⟩ ]

/-- The unprefixed page: every row of the table that is not of format `CB_OP` (30_encoding.md R76). -/
def mainRows : List Row :=
  mainRows0a ++ mainRows0b ++ mainRows1 ++ mainRows2 ++ mainRows3a ++ mainRows3b ++ mainRowsUnassigned

/-- The prefixed page, patterns over byte 1 (30_encoding.md R72). -/
def cbRows : List Row :=
  [ ⟨0x00, 0xF8, anyField, .x, fun b => .op (.rlcR8 (opndZ b))⟩,
    ⟨0x08, 0xF8, anyField, .x, fun b => .op (.rrcR8 (opndZ b))⟩,
    ⟨0x10, 0xF8, anyField, .x, fun b => .op (.rlR8 (opndZ b))⟩,
    ⟨0x18, 0xF8, anyField, .x, fun b => .op (.rrR8 (opndZ b))⟩,
    ⟨0x20, 0xF8, anyField, .x, fun b => .op (.slaR8 (opndZ b))⟩,
    ⟨0x28, 0xF8, anyField, .x, fun b => .op (.sraR8 (opndZ b))⟩,
    ⟨0x30, 0xF8, anyField, .x, fun b => .op (.swapR8 (opndZ b))⟩,
    ⟨0x38, 0xF8, anyField, .x, fun b => .op (.srlR8 (opndZ b))⟩,
    ⟨0x40, 0xC0, anyField, .s, fun b => .op (.bitBR8 (fieldY b) (opndZ b))⟩,
    ⟨0x80, 0xC0, anyField, .x, fun b => .op (.resBR8 (fieldY b) (opndZ b))⟩,
    ⟨0xC0, 0xC0, anyField, .x, fun b => .op (.setBR8 (fieldY b) (opndZ b))⟩ ]

/-- The page of the table a key is looked up in (30_encoding.md R60, R76). -/
def pageOf (k : Key) : List Row := if k.prefixed then cbRows else mainRows

/-- The table row of a key, none when there is no row for it (30_encoding.md R69, R73). -/
def rowOf (k : Key) : Option Row := (pageOf k).find? (·.matchesByte k.opcode)

/-- Whether a row of this group is in the dispatch table (30_encoding.md R69, R71): group S always,
group X when `DISPATCH_EXT` is true, an ILLEGAL row never. -/
def Group.inTable (ext : Bool) : Group → Bool
  | .s => true
  | .x => ext
  | .unassigned => false

/-- Whether a key has a row in the dispatch table (30_encoding.md R69, R71). -/
def Key.recognized (ext : Bool) (k : Key) : Bool :=
  match rowOf k with
  | some r => r.group.inTable ext
  | none => false

/-! ### The decoder on a list of bytes -/

/-- Why a list of bytes is no instruction: it ends before the opcode byte or an operand byte
(`truncated`), or its key has no row at all (`noRow`; no key a fetch forms is such). -/
inductive DecodeError
  | truncated
  | noRow (k : Key)
  deriving DecidableEq, Repr

/-- The operand bytes of a form taken from the bytes after the opcode, the low byte of `n16` first
(30_encoding.md R68); the bytes left over are returned. -/
def Form.complete (fm : Form) (bs : List Byte) : Except DecodeError (Instr × List Byte) :=
  match fm, bs with
  | .op i, rest => .ok (i, rest)
  | .opN8 mk, n :: rest => .ok (mk n, rest)
  | .opN16 mk, lo :: hi :: rest => .ok (mk (cat hi lo), rest)
  | .opN8 _, [] => .error .truncated
  | .opN16 _, [] => .error .truncated
  | .opN16 _, [_] => .error .truncated

/-- The instruction of a key, its operand bytes taken from `bs`. -/
def decodeKey (k : Key) (bs : List Byte) : Except DecodeError (Instr × List Byte) :=
  match rowOf k with
  | some r => (r.form k.opcode).complete bs
  | none => .error (.noRow k)

/-- The decoder, total on any bytes (30_encoding.md R60, R73): the first instruction of the list and
the bytes after it, or the reason there is none. -/
def decode (bs : List Byte) : Except DecodeError (Instr × List Byte) :=
  match bs with
  | [] => .error .truncated
  | b0 :: rest =>
    if b0 = Config.prefixByte then
      match rest with
      | [] => .error .truncated
      | b1 :: rest' => decodeKey ⟨true, b1⟩ rest'
    else decodeKey ⟨false, b0⟩ rest

/-- The three bytes of a number whose bit 0 is the least significant bit of the first byte, the bits
from `nbits` on taken as 0. -/
def wordBytes (nbits w : Nat) : List Byte :=
  let v := w % 2 ^ nbits
  [BitVec.ofNat 8 v, BitVec.ofNat 8 (v / 0x100), BitVec.ofNat 8 (v / 0x10000)]

/-- The instruction the decoder reads from a table word: bit 0 is the least significant bit of the
first byte in memory, bits 15 to 8 are the second byte, and every bit from `nbits` on is 0. A row of
format `CB_OP` is thus the number whose low byte is 0xCB (log 11). -/
def decodeTableWord (nbits w : Nat) : Option Instr :=
  match decode (wordBytes nbits w) with
  | .ok (i, _) => some i
  | .error _ => none

/-! ### The encoder -/

/-- The `r8` code (30_encoding.md R63). -/
def R8.code : R8 → BitVec 3
  | .b => 0 | .c => 1 | .d => 2 | .e => 3 | .h => 4 | .l => 5 | .mhl => 6 | .a => 7

/-- The `rr` code of table SP (30_encoding.md R64). -/
def PairSp.code : PairSp → BitVec 2
  | .bc => 0 | .de => 1 | .hl => 2 | .sp => 3

/-- The `rr` code of table AF (30_encoding.md R64). -/
def PairAf.code : PairAf → BitVec 2
  | .bc => 0 | .de => 1 | .hl => 2 | .af => 3

/-- The `cc` code (30_encoding.md R65). -/
def Cond.code : Cond → BitVec 2
  | .nz => 0 | .z => 1 | .nc => 2 | .c => 3

/-- The instruction key, each opcode byte written as the bit pattern of 30_encoding.md R70 or R72. -/
def Instr.key : Instr → Key
  | .nop => ⟨false, 0b00000000⟩
  | .ldRrN16 rr _ => ⟨false, 0b00#2 ++ rr.code ++ 0b0001#4⟩
  | .ldBcA => ⟨false, 0b00000010⟩
  | .ldDeA => ⟨false, 0b00010010⟩
  | .ldHliA => ⟨false, 0b00100010⟩
  | .ldHldA => ⟨false, 0b00110010⟩
  | .incRr rr => ⟨false, 0b00#2 ++ rr.code ++ 0b0011#4⟩
  | .incR8 r => ⟨false, 0b00#2 ++ r.code ++ 0b100#3⟩
  | .decR8 r => ⟨false, 0b00#2 ++ r.code ++ 0b101#3⟩
  | .ldRN8 dst _ => ⟨false, 0b00#2 ++ dst.code ++ 0b110#3⟩
  | .ldHlN8 _ => ⟨false, 0b00110110⟩
  | .rlca => ⟨false, 0b00000111⟩
  | .rrca => ⟨false, 0b00001111⟩
  | .rla => ⟨false, 0b00010111⟩
  | .rra => ⟨false, 0b00011111⟩
  | .ldN16Sp _ => ⟨false, 0b00001000⟩
  | .addHlRr rr => ⟨false, 0b00#2 ++ rr.code ++ 0b1001#4⟩
  | .ldABc => ⟨false, 0b00001010⟩
  | .ldADe => ⟨false, 0b00011010⟩
  | .ldAHli => ⟨false, 0b00101010⟩
  | .ldAHld => ⟨false, 0b00111010⟩
  | .decRr rr => ⟨false, 0b00#2 ++ rr.code ++ 0b1011#4⟩
  | .illegal10 => ⟨false, 0x10⟩
  | .jrE8 _ => ⟨false, 0b00011000⟩
  | .jrCcE8 cc _ => ⟨false, 0b001#3 ++ cc.code ++ 0b000#3⟩
  | .daa => ⟨false, 0b00100111⟩
  | .cpl => ⟨false, 0b00101111⟩
  | .scf => ⟨false, 0b00110111⟩
  | .ccf => ⟨false, 0b00111111⟩
  | .ldRR dst src => ⟨false, 0b01#2 ++ dst.code ++ src.code⟩
  | .ldRHl dst => ⟨false, 0b01#2 ++ dst.code ++ 0b110#3⟩
  | .ldHlR src => ⟨false, 0b01110#5 ++ src.code⟩
  | .illegal76 => ⟨false, 0x76⟩
  | .addAR8 r => ⟨false, 0b10000#5 ++ r.code⟩
  | .adcAR8 r => ⟨false, 0b10001#5 ++ r.code⟩
  | .subAR8 r => ⟨false, 0b10010#5 ++ r.code⟩
  | .sbcAR8 r => ⟨false, 0b10011#5 ++ r.code⟩
  | .andAR8 r => ⟨false, 0b10100#5 ++ r.code⟩
  | .xorAR8 r => ⟨false, 0b10101#5 ++ r.code⟩
  | .orAR8 r => ⟨false, 0b10110#5 ++ r.code⟩
  | .cpAR8 r => ⟨false, 0b10111#5 ++ r.code⟩
  | .retCc cc => ⟨false, 0b110#3 ++ cc.code ++ 0b000#3⟩
  | .popRr rr => ⟨false, 0b11#2 ++ rr.code ++ 0b0001#4⟩
  | .jpCcN16 cc _ => ⟨false, 0b110#3 ++ cc.code ++ 0b010#3⟩
  | .jpN16 _ => ⟨false, 0b11000011⟩
  | .callCcN16 cc _ => ⟨false, 0b110#3 ++ cc.code ++ 0b100#3⟩
  | .pushRr rr => ⟨false, 0b11#2 ++ rr.code ++ 0b0101#4⟩
  | .addAN8 _ => ⟨false, 0b11000110⟩
  | .adcAN8 _ => ⟨false, 0b11001110⟩
  | .subAN8 _ => ⟨false, 0b11010110⟩
  | .sbcAN8 _ => ⟨false, 0b11011110⟩
  | .andAN8 _ => ⟨false, 0b11100110⟩
  | .xorAN8 _ => ⟨false, 0b11101110⟩
  | .orAN8 _ => ⟨false, 0b11110110⟩
  | .cpAN8 _ => ⟨false, 0b11111110⟩
  | .rstT t => ⟨false, 0b11#2 ++ t ++ 0b111#3⟩
  | .ret => ⟨false, 0b11001001⟩
  | .callN16 _ => ⟨false, 0b11001101⟩
  | .reti => ⟨false, 0b11011001⟩
  | .ldhN8A _ => ⟨false, 0b11100000⟩
  | .ldhAN8 _ => ⟨false, 0b11110000⟩
  | .ldhCA => ⟨false, 0b11100010⟩
  | .ldhAC => ⟨false, 0b11110010⟩
  | .addSpE8 _ => ⟨false, 0b11101000⟩
  | .jpHl => ⟨false, 0b11101001⟩
  | .ldN16A _ => ⟨false, 0b11101010⟩
  | .ldAN16 _ => ⟨false, 0b11111010⟩
  | .di => ⟨false, 0b11110011⟩
  | .ei => ⟨false, 0b11111011⟩
  | .ldHlSpE8 _ => ⟨false, 0b11111000⟩
  | .ldSpHl => ⟨false, 0b11111001⟩
  | .illegalD3 => ⟨false, 0xD3⟩
  | .illegalDB => ⟨false, 0xDB⟩
  | .illegalDD => ⟨false, 0xDD⟩
  | .illegalE3 => ⟨false, 0xE3⟩
  | .illegalE4 => ⟨false, 0xE4⟩
  | .illegalEB => ⟨false, 0xEB⟩
  | .illegalEC => ⟨false, 0xEC⟩
  | .illegalED => ⟨false, 0xED⟩
  | .illegalF4 => ⟨false, 0xF4⟩
  | .illegalFC => ⟨false, 0xFC⟩
  | .illegalFD => ⟨false, 0xFD⟩
  | .rlcR8 r => ⟨true, 0b00000#5 ++ r.code⟩
  | .rrcR8 r => ⟨true, 0b00001#5 ++ r.code⟩
  | .rlR8 r => ⟨true, 0b00010#5 ++ r.code⟩
  | .rrR8 r => ⟨true, 0b00011#5 ++ r.code⟩
  | .slaR8 r => ⟨true, 0b00100#5 ++ r.code⟩
  | .sraR8 r => ⟨true, 0b00101#5 ++ r.code⟩
  | .swapR8 r => ⟨true, 0b00110#5 ++ r.code⟩
  | .srlR8 r => ⟨true, 0b00111#5 ++ r.code⟩
  | .bitBR8 b r => ⟨true, 0b01#2 ++ b ++ r.code⟩
  | .resBR8 b r => ⟨true, 0b10#2 ++ b ++ r.code⟩
  | .setBR8 b r => ⟨true, 0b11#2 ++ b ++ r.code⟩

/-- The operand bytes after the opcode: none, `n8` or `e8`, or the low and high byte of `n16`
(30_encoding.md R61, R68). -/
def Instr.operandBytes : Instr → List Byte
  | .ldRN8 _ n | .ldHlN8 n | .jrE8 n | .jrCcE8 _ n | .addAN8 n | .adcAN8 n | .subAN8 n
  | .sbcAN8 n | .andAN8 n | .xorAN8 n | .orAN8 n | .cpAN8 n | .ldhN8A n | .ldhAN8 n | .addSpE8 n
  | .ldHlSpE8 n => [n]
  | .ldRrN16 _ n | .ldN16Sp n | .jpCcN16 _ n | .jpN16 n | .callCcN16 _ n | .callN16 n | .ldN16A n
  | .ldAN16 n => [lo8 n, hi8 n]
  | .nop | .ldBcA | .ldDeA | .ldHliA | .ldHldA | .incRr _ | .incR8 _ | .decR8 _ | .rlca | .rrca
  | .rla | .rra | .addHlRr _ | .ldABc | .ldADe | .ldAHli | .ldAHld | .decRr _ | .illegal10 | .daa
  | .cpl | .scf | .ccf | .ldRR _ _ | .ldRHl _ | .ldHlR _ | .illegal76 | .addAR8 _ | .adcAR8 _
  | .subAR8 _ | .sbcAR8 _ | .andAR8 _ | .xorAR8 _ | .orAR8 _ | .cpAR8 _ | .retCc _ | .popRr _
  | .pushRr _ | .rstT _ | .ret | .reti | .ldhCA | .ldhAC | .jpHl | .di | .ei | .ldSpHl
  | .illegalD3 | .illegalDB | .illegalDD | .illegalE3 | .illegalE4 | .illegalEB | .illegalEC
  | .illegalED | .illegalF4 | .illegalFC | .illegalFD | .rlcR8 _ | .rrcR8 _ | .rlR8 _ | .rrR8 _
  | .slaR8 _ | .sraR8 _ | .swapR8 _ | .srlR8 _ | .bitBR8 _ _ | .resBR8 _ _ | .setBR8 _ _ => []

/-- The bytes of a key: the opcode byte, after the prefix byte on the prefixed page (30_encoding.md R60). -/
def Key.bytes (k : Key) : List Byte := if k.prefixed then [Config.prefixByte, k.opcode] else [k.opcode]

/-- The encoder: the bytes of an instruction in memory order (30_encoding.md R61). -/
def encode (i : Instr) : List Byte := i.key.bytes ++ i.operandBytes

/-- The length in bytes that advances `pc` (30_encoding.md R61). -/
def Instr.length (i : Instr) : Nat := (encode i).length

end Sys2Proof
end

