-- ==== Sys2Proof/Machine/State.lean ====
section
/-! DEFINITION. The state of the machine as plain data (10_state.md R10 to R22), the launch
parameters (00_scope.md R7), the state after reset (10_state.md R24), and the reasons a step of the
model can stop. -/

namespace Sys2Proof.Machine

/-! ### Memory -/

/-- A store as the list of its bytes that are not 0x00, addresses (offsets in the store) strictly
rising. A byte that is not listed is 0x00, the default of `INIT_MEM` (00_scope.md R7). -/
abbrev Memory := List Host.Cell

/-- The writable backing stores of the bus (10_state.md R21). -/
structure Stores where
  /-- Video RAM, 0x8000 to 0x9FFF. -/
  vram : Memory
  /-- External RAM, 0xA000 to 0xBFFF. -/
  eram : Memory
  /-- Work RAM, 0xC000 to 0xDFFF and its echo (20_memory.md R33). -/
  wram : Memory
  /-- The input cell 0xFF00 (10_state.md R19). -/
  input : Byte
  /-- The I/O cells 0xFF01 to 0xFF7F; IF is offset 0x0E and LCDC offset 0x3F (10_state.md R17, R18). -/
  io : Memory
  /-- High RAM, 0xFF80 to 0xFFFE. -/
  hram : Memory
  /-- The interrupt-enable cell 0xFFFF (10_state.md R17). -/
  ie : Byte
  deriving DecidableEq, Repr

/-- Stores with every byte 0x00, the default of `INIT_MEM` (00_scope.md R7). -/
def Stores.zero : Stores := ⟨[], [], [], 0, [], [], 0⟩

/-! ### The video controller -/

/-- The four display phases (10_state.md R20). -/
inductive PpuMode
  | oamScan | pixelTransfer | hblank | vblank
  deriving DecidableEq, Repr

/-- The state of the video controller (10_state.md R20): the phase, the line counter 0 to 153, and the
cycles since the start of the line, 0 to 455. -/
structure Ppu where
  mode : PpuMode
  line : Nat
  clock : Nat
  deriving DecidableEq, Repr

/-! ### Fatal errors -/

/-- The two fatal errors with the information they carry (60_exceptions.md R203). -/
inductive FaultKind
  | unmappedAddress (addr : Word)
  | unknownOpcode (key : Key)
  deriving DecidableEq, Repr

/-- A latched fatal error: its kind and the `pc` at the time (10_state.md R22). -/
structure FaultRecord where
  kind : FaultKind
  pc : Word
  deriving DecidableEq, Repr

/-! ### Launch parameters -/

/-- One entry in which `COST` differs from the default table: the dispatch row by its key, whether the
transfer is taken, and the cycles (00_scope.md R7, 60_exceptions.md R200). -/
structure CostEntry where
  key : Key
  taken : Bool
  cycles : Nat
  deriving DecidableEq, Repr

/-- The parameters the launch chooses (00_scope.md R7). They are no state of the machine (10_state.md
R25); they stand in State because the step has no other argument, and no step changes them (log 1). -/
structure Launch where
  /-- `BOOT_PRESENT`. -/
  bootPresent : Bool
  /-- `BOOT_ROM`, by offset 0 to 0xFF; a byte not listed is 0x00. -/
  bootRom : Memory
  /-- `CART`, by offset below `cartLen`; a byte not listed is 0x00. -/
  cart : Memory
  /-- `CART_LEN`. -/
  cartLen : Nat
  /-- `INIT_MEM`. -/
  initMem : Stores
  /-- `DISPATCH_EXT`. -/
  dispatchExt : Bool
  /-- `ACK_CLEARS_IF`. -/
  ackClearsIf : Bool
  /-- `COST`, where it differs from the default table (70_reset_and_hazards.md R250). -/
  costs : List CostEntry
  /-- `HOST_WRITES`. -/
  hostWrites : Bool
  /-- `DUMP_DEPTH`. -/
  dumpDepth : Nat
  /-- `DUMP_VRAM_OFFSET`. -/
  dumpVramOffset : Nat
  deriving DecidableEq, Repr

/-- The launch of `State.reset`: the defaults of 00_scope.md R7, and where it gives none the choice of
log 2: no boot ROM, a blank cartridge of the largest size, a dump of depth 0. -/
def Launch.default : Launch where
  bootPresent := false
  bootRom := []
  cart := []
  cartLen := Config.cartMax
  initMem := .zero
  dispatchExt := true
  ackClearsIf := false
  costs := []
  hostWrites := false
  dumpDepth := 0
  dumpVramOffset := 0

/-! ### The host -/

/-- What the host does between two steps (60_exceptions.md R235): it runs the loop once, unmaps the
boot ROM, or writes the input cell. -/
inductive HostMove
  | run
  | disableBoot
  | writeInput (v : Byte)
  deriving DecidableEq, Repr

/-- What the last step put out: the cycle count it returned, none where it faulted
(60_exceptions.md R200); the lines of its RenderLine events (R229); its bus writes in order
(20_memory.md R47). The machine reads none of them (logs 7 and 8). -/
structure StepOut where
  cycles : Option Nat
  rendered : List Nat
  writes : List (Word × Byte)
  deriving DecidableEq, Repr

/-- Nothing put out yet. -/
def StepOut.empty : StepOut := ⟨none, [], []⟩

/-! ### State -/

/-- The whole machine between two steps. -/
structure State where
  /-- The accumulator (10_state.md R10). -/
  a : Byte
  /-- The flag register, Z N H C in bits 7 to 4 (10_state.md R12). -/
  f : Byte
  b : Byte
  c : Byte
  d : Byte
  e : Byte
  h : Byte
  l : Byte
  /-- The program counter (10_state.md R14). -/
  pc : Word
  /-- The stack pointer (10_state.md R15). -/
  sp : Word
  /-- The interrupt master enable (10_state.md R16). -/
  ime : Bool
  /-- The pending enable of EI, `ime_pending` (10_state.md R16). -/
  imePending : Bool
  /-- The writable stores of the bus (10_state.md R21). -/
  mem : Stores
  /-- Whether the boot ROM answers 0x0000 to 0x00FF, `boot_mapped` (10_state.md R21). -/
  bootMapped : Bool
  /-- The video controller (10_state.md R20). -/
  ppu : Ppu
  /-- The fault latch (10_state.md R22). -/
  fault : Option FaultRecord
  /-- The operation count, `op_count` (10_state.md R22). -/
  opCount : Nat
  /-- The launch parameters (00_scope.md R7), which no step changes. -/
  launch : Launch
  /-- The moves the host will make, in order; after the last one it only runs the loop (log 6). -/
  hostPlan : List HostMove
  /-- What the last step put out (logs 7 and 8). -/
  out : StepOut
  deriving DecidableEq, Repr

/-- The state after construction and `reset()` with the given parameters (10_state.md R24,
70_reset_and_hazards.md R240). -/
def State.ofLaunch (p : Launch) : State where
  a := 0x01
  f := 0xB0
  b := 0x00
  c := 0x13
  d := 0x00
  e := 0xD8
  h := 0x01
  l := 0x4D
  pc := if p.bootPresent then 0x0000 else 0x0100
  sp := 0xFFFE
  ime := false
  imePending := false
  mem := p.initMem
  bootMapped := p.bootPresent
  ppu := ⟨.hblank, 0, 0⟩
  fault := none
  opCount := 0
  launch := p
  hostPlan := []
  out := .empty

/-- The machine right after reset, at the default launch (10_state.md R24, log 2). -/
def State.reset : State := State.ofLaunch Launch.default

/-! ### How a step can stop -/

/-- Why a step of the model has no successor although the hardware names the situation. -/
inductive Fault
  /-- Raised by `step` in a state whose fault latch is set: the hardware has no step there
  (60_exceptions.md R204). Safe: nothing runs on either side. -/
  | latched (r : FaultRecord)
  deriving DecidableEq, Repr

/-- Why the model has no move. -/
inductive Refusal
  /-- Raised by `exec` for an instruction that has no meaning in the model; no arm does. Safe. -/
  | notModelled (mnemonic : String)
  /-- Raised by `step` when the host's plan writes the input cell although `HOST_WRITES` is false: the
  host has no such move (60_exceptions.md R235). Safe. -/
  | hostWriteForbidden
  deriving DecidableEq, Repr

/-- The outcome of a step or of an instruction's meaning. -/
abbrev Result := Host.Outcome State Fault Refusal

end Sys2Proof.Machine
end

