-- ==== Sys2Proof/Machine/Ops.lean ====
section
/-! DEFINITION. The shared operations over memory, the bus, the registers, the stack and the
interrupt controller. An operation that can raise a fatal error takes what follows it as an argument
`k`, so that a raise ends the step there and keeps every effect made before it
(60_exceptions.md R206). -/

namespace Sys2Proof.Machine

/-! ### One store -/

/-- What a byte that is not listed reads as (00_scope.md R7, default of `INIT_MEM`). -/
def unlistedByte : Byte := 0x00

/-- The byte at an offset. -/
def Memory.read (m : Memory) (k : Nat) : Byte :=
  match m with
  | [] => unlistedByte
  | (j, v) :: rest => if j = k then v else Memory.read rest k

/-- List the byte `v` at offset `k`, in the place the rising order gives it. -/
def Memory.insert (m : Memory) (k : Nat) (v : Byte) : Memory :=
  match m with
  | [] => [(k, v)]
  | (j, w) :: rest =>
    if k < j then (k, v) :: (j, w) :: rest
    else if k = j then (k, v) :: rest
    else (j, w) :: Memory.insert rest k v

/-- List nothing at offset `k`. -/
def Memory.erase (m : Memory) (k : Nat) : Memory := m.filter fun cell => cell.1 != k

/-- Store the byte `v` at offset `k`; storing the unlisted byte removes the entry. -/
def Memory.write (m : Memory) (k : Nat) (v : Byte) : Memory :=
  if v = unlistedByte then Memory.erase m k else Memory.insert m k v

/-- Offsets strictly rise from `lo` on and no listed byte is the unlisted one. -/
def Memory.wfFrom (lo : Nat) (m : Memory) : Bool :=
  match m with
  | [] => true
  | (k, v) :: rest => decide (lo ≤ k) && v != unlistedByte && Memory.wfFrom (k + 1) rest

/-- The canonical form: equal stores are equal lists. -/
def Memory.wf (m : Memory) : Bool := Memory.wfFrom 0 m

/-- Every listed offset is below `n`. -/
def Memory.within (n : Nat) (m : Memory) : Bool := m.all fun cell => decide (cell.1 < n)

/-! ### The address decoder -/

/-- A backing cell, or `unmapped` (20_memory.md R32). -/
inductive Route
  | bootRom (o : Nat) | cartRom (o : Nat)
  | vram (o : Nat) | eram (o : Nat) | wram (o : Nat)
  | input | io (o : Nat) | hram (o : Nat) | ie
  | unmapped
  deriving DecidableEq, Repr

/-- The decoder, its cases in the order of 20_memory.md R32. -/
def State.route (s : State) (addr : Word) : Route :=
  let n := addr.toNat
  if n ≤ 0x00FF ∧ s.bootMapped then .bootRom n
  else if n ≤ 0x7FFF then (if n < s.launch.cartLen then .cartRom n else .unmapped)
  else if n ≤ 0x9FFF then .vram (n - 0x8000)
  else if n ≤ 0xBFFF then .eram (n - 0xA000)
  else if n ≤ 0xDFFF then .wram (n - 0xC000)
  else if n ≤ 0xFDFF then .wram (n - 0xE000)
  else if n ≤ 0xFEFF then .unmapped
  else if n = 0xFF00 then .input
  else if n ≤ 0xFF7F then .io (n - 0xFF01)
  else if n ≤ 0xFFFE then .hram (n - 0xFF80)
  else .ie

/-- The byte of a writable cell; none for ROM and for `unmapped`. -/
def Stores.get (m : Stores) (r : Route) : Option Byte :=
  match r with
  | .vram o => some (m.vram.read o)
  | .eram o => some (m.eram.read o)
  | .wram o => some (m.wram.read o)
  | .input => some m.input
  | .io o => some (m.io.read o)
  | .hram o => some (m.hram.read o)
  | .ie => some m.ie
  | .bootRom _ | .cartRom _ | .unmapped => none

/-- The stores after a write to a cell; none where a write is fatal (20_memory.md R36). -/
def Stores.put (m : Stores) (r : Route) (v : Byte) : Option Stores :=
  match r with
  | .vram o => some { m with vram := m.vram.write o v }
  | .eram o => some { m with eram := m.eram.write o v }
  | .wram o => some { m with wram := m.wram.write o v }
  | .input => some { m with input := v }
  | .io o => some { m with io := m.io.write o v }
  | .hram o => some { m with hram := m.hram.write o v }
  | .ie => some { m with ie := v }
  | .bootRom _ | .cartRom _ | .unmapped => none

/-- The byte of any cell; none only for `unmapped` (20_memory.md R35). -/
def State.cell (s : State) (r : Route) : Option Byte :=
  match r with
  | .bootRom o => some (s.launch.bootRom.read o)
  | .cartRom o => some (s.launch.cart.read o)
  | .unmapped => none
  | .vram _ | .eram _ | .wram _ | .input | .io _ | .hram _ | .ie => s.mem.get r

/-- `MemRead(addr, 1)` without the raise: none where the read is fatal (20_memory.md R35). -/
def State.busRead (s : State) (addr : Word) : Option Byte := s.cell (s.route addr)

/-- The state after new stores and one more recorded write. -/
def State.stored (s : State) (m : Stores) (addr : Word) (v : Byte) : State :=
  { s with mem := m, out := { s.out with writes := s.out.writes ++ [(addr, v)] } }

/-- `MemWrite(addr, 1, v)` without the raise: none where the write is fatal (20_memory.md R36). The
write is also recorded, for the observer (log 8). -/
def State.busWrite (s : State) (addr : Word) (v : Byte) : Option State :=
  match s.mem.put (s.route addr) v with
  | some m => some (s.stored m addr v)
  | none => none

/-! ### Raising a fatal error -/

/-- `raise`: latch the fault with the current `pc` (60_exceptions.md R204). Nothing else changes, and the
caller performs nothing after it (R206). -/
def State.raise (s : State) (k : FaultKind) : State := { s with fault := some ⟨k, s.pc⟩ }

/-- `MemRead(addr, 1)` and then `k`, or the raise (20_memory.md R35). -/
def readThen (s : State) (addr : Word) (k : Byte → Result) : Result :=
  match s.busRead addr with
  | some v => k v
  | none => .next (s.raise (.unmappedAddress addr))

/-- `MemWrite(addr, 1, v)` and then `k`, or the raise (20_memory.md R36). -/
def writeThen (s : State) (addr : Word) (v : Byte) (k : State → Result) : Result :=
  match s.busWrite addr v with
  | some t => k t
  | none => .next (s.raise (.unmappedAddress addr))

/-! ### Registers -/

/-- The eight 8-bit registers (10_state.md R10). -/
inductive Reg
  | a | f | b | c | d | e | h | l
  deriving DecidableEq, Repr

/-- `x[r]` (00_scope.md R8). -/
def State.reg (s : State) (r : Reg) : Byte :=
  match r with
  | .a => s.a | .f => s.f | .b => s.b | .c => s.c
  | .d => s.d | .e => s.e | .h => s.h | .l => s.l

/-- `x[r] <- v` (00_scope.md R8); a write of `f` forces its bits 3 to 0 to 0 (10_state.md R12). -/
def State.setReg (s : State) (r : Reg) (v : Byte) : State :=
  match r with
  | .a => { s with a := v }
  | .f => { s with f := v &&& 0xF0 }
  | .b => { s with b := v }
  | .c => { s with c := v }
  | .d => { s with d := v }
  | .e => { s with e := v }
  | .h => { s with h := v }
  | .l => { s with l := v }

/-- `x[BC]` (00_scope.md R8). -/
def State.bc (s : State) : Word := cat s.b s.c

/-- `x[DE]` (00_scope.md R8). -/
def State.de (s : State) : Word := cat s.d s.e

/-- `x[HL]` (00_scope.md R8). -/
def State.hl (s : State) : Word := cat s.h s.l

/-- `x[AF]` (00_scope.md R8). -/
def State.af (s : State) : Word := cat s.a s.f

/-- `x[BC] <- w` (00_scope.md R8). -/
def State.setBc (s : State) (w : Word) : State := { s with b := hi8 w, c := lo8 w }

/-- `x[DE] <- w` (00_scope.md R8). -/
def State.setDe (s : State) (w : Word) : State := { s with d := hi8 w, e := lo8 w }

/-- `x[HL] <- w` (00_scope.md R8). -/
def State.setHl (s : State) (w : Word) : State := { s with h := hi8 w, l := lo8 w }

/-- `x[AF] <- w`: the low four bits of `f` stay zero (00_scope.md R8, 10_state.md R12). -/
def State.setAf (s : State) (w : Word) : State := { s with a := hi8 w, f := lo8 w &&& 0xF0 }

/-- `sp <- w`. -/
def State.setSp (s : State) (w : Word) : State := { s with sp := w }

/-- `pc <- target`. -/
def State.setPc (s : State) (w : Word) : State := { s with pc := w }

/-- `len <- k`: the step performs `pc <- pc + k` modulo 2^16 (10_state.md R14). -/
def State.bumpPc (s : State) (k : Word) : State := { s with pc := s.pc + k }

/-! ### The stack -/

/-- `Push16(w)`: pre-decrement, high byte at the higher address (40_source_named.md R86). -/
def push16Then (w : Word) (s : State) (k : State → Result) : Result :=
  writeThen (s.setSp (s.sp - 1)) (s.sp - 1) (hi8 w) fun s₁ =>
  writeThen (s₁.setSp (s₁.sp - 1)) (s₁.sp - 1) (lo8 w) k

/-- `Pop16()`: read, then post-increment, low byte first (40_source_named.md R87). -/
def pop16Then (s : State) (k : Word → State → Result) : Result :=
  readThen s s.sp fun lo =>
  let s₁ := s.setSp (s.sp + 1)
  readThen s₁ s₁.sp fun hi => k (cat hi lo) (s₁.setSp (s₁.sp + 1))

/-! ### The interrupt controller -/

/-- The IE cell (10_state.md R17). -/
def State.ieByte (s : State) : Byte := s.mem.ie

/-- The IF cell, offset 0x0E of the I/O store (20_memory.md R34). -/
def State.ifByte (s : State) : Byte := s.mem.io.read 0x0E

/-- The LCDC cell, offset 0x3F of the I/O store (10_state.md R18). -/
def State.lcdc (s : State) : Byte := s.mem.io.read 0x3F

/-- The least set bit of `m` among bits 0 to 4 (60_exceptions.md R210, R212). -/
def lowestBit (m : Byte) : Option Nat :=
  if m.getLsbD 0 then some 0
  else if m.getLsbD 1 then some 1
  else if m.getLsbD 2 then some 2
  else if m.getLsbD 3 then some 3
  else if m.getLsbD 4 then some 4
  else none

/-- The fixed vector of an interrupt bit (60_exceptions.md R211). -/
def vectorOf (bit : Nat) : Word := BitVec.ofNat 16 (0x0040 + 8 * bit)

/-- `pending()` (60_exceptions.md R210): the bit and the vector of the interrupt to dispatch. -/
def State.pending (s : State) : Option (Nat × Word) :=
  if s.ime then
    match lowestBit (s.ieByte &&& s.ifByte &&& 0x1F) with
    | some bit => some (bit, vectorOf bit)
    | none => none
  else none

/-- `set_master_enable(b)`: writes `ime` at once and clears the pending enable (60_exceptions.md R217). -/
def State.setMasterEnable (s : State) (on : Bool) : State := { s with ime := on, imePending := false }

/-- The optional acknowledge of `service`: with `ACK_CLEARS_IF` the dispatched bit of IF is cleared by
a bus write (60_exceptions.md R214). -/
def ackThen (bit : Nat) (s : State) (k : State → Result) : Result :=
  if s.launch.ackClearsIf then
    writeThen s Config.ifAddr (s.ifByte &&& ~~~(BitVec.twoPow 8 bit)) k
  else k s

/-- `service(bit, vector)`: taking an interrupt (60_exceptions.md R214). `pc` is pushed on the stack, the
request is acknowledged where `ACK_CLEARS_IF`, `pc` becomes the vector, `ime` and the pending enable
are cleared. Nothing else is saved and no mode changes. -/
def serviceThen (bit : Nat) (vector : Word) (s : State) (k : State → Result) : Result :=
  push16Then s.pc s fun s₁ =>
  ackThen bit s₁ fun s₂ =>
  k ((s₂.setPc vector).setMasterEnable false)

/-- The return from an interrupt that also re-enables, as RETI does it: `pc` from the stack, `ime` set,
the pending enable cleared (46_ext_control.md R176). The plain return is `pop16Then` alone
(60_exceptions.md R219). -/
def returnEnabled (s : State) : Result :=
  pop16Then s fun w t => .next ((t.setPc w).setMasterEnable true)

end Sys2Proof.Machine
end

