-- ==== Sys2Proof/Machine/Flags.lean ====
section
/-! DEFINITION. The flags (10_state.md R12, R13) and every result-and-flag computation of the
instruction rules. Sums and comparisons are over the integers and narrowed at the end. -/

namespace Sys2Proof.Machine

/-- The four flags: Zero, Subtract, HalfCarry, Carry (10_state.md R12). -/
structure Flags where
  z : Bool
  n : Bool
  h : Bool
  c : Bool
  deriving DecidableEq, Repr

/-- The byte `Z*0x80 + N*0x40 + H*0x20 + C*0x10` (10_state.md R12). -/
def Flags.pack (fl : Flags) : Byte :=
  BitVec.ofBool fl.z ++ BitVec.ofBool fl.n ++ BitVec.ofBool fl.h ++ BitVec.ofBool fl.c ++ 0#4

/-- The flags in bits 7 to 4 of `f` (10_state.md R12). -/
def State.flags (s : State) : Flags :=
  ⟨s.f.getLsbD 7, s.f.getLsbD 6, s.f.getLsbD 5, s.f.getLsbD 4⟩

/-- Write the flags; bits 3 to 0 of `f` become 0 (10_state.md R12). A rule that leaves a flag untouched
passes its old value (R13). -/
def State.setFlags (s : State) (fl : Flags) : State := { s with f := fl.pack }

/-! ### 8-bit arithmetic -/

/-- `a + v + carry` with the flags of ADD and ADC (43_ext_alu8.md R130, R131). -/
def add8 (a v : Byte) (carry : Bool) : Byte × Flags :=
  let sum := a.toNat + v.toNat + bit carry
  let r := BitVec.ofNat 8 sum
  (r, { z := r == 0, n := false,
        h := decide (a.toNat % 16 + v.toNat % 16 + bit carry > 0x0F),
        c := decide (sum > 0xFF) })

/-- `a - v - carry` with the flags of SUB, SBC and CP (43_ext_alu8.md R132, R133,
40_source_named.md R84). -/
def sub8 (a v : Byte) (carry : Bool) : Byte × Flags :=
  let r := BitVec.ofInt 8 ((a.toNat : Int) - v.toNat - bit carry)
  (r, { z := r == 0, n := true,
        h := decide (a.toNat % 16 < v.toNat % 16 + bit carry),
        c := decide (a.toNat < v.toNat + bit carry) })

/-- Bitwise and with the flags of AND: H is 1 (43_ext_alu8.md R134). -/
def and8 (a v : Byte) : Byte × Flags :=
  let r := a &&& v
  (r, { z := r == 0, n := false, h := true, c := false })

/-- Bitwise exclusive or with the flags of XOR (40_source_named.md R92). -/
def xor8 (a v : Byte) : Byte × Flags :=
  let r := a ^^^ v
  (r, { z := r == 0, n := false, h := false, c := false })

/-- Bitwise or with the flags of OR (43_ext_alu8.md R135). -/
def or8 (a v : Byte) : Byte × Flags :=
  let r := a ||| v
  (r, { z := r == 0, n := false, h := false, c := false })

/-- `v + 1` with the flags of INC r8; C is the old one (40_source_named.md R82). -/
def inc8 (v : Byte) (old : Flags) : Byte × Flags :=
  let r := v + 1
  (r, { z := r == 0, n := false, h := v &&& 0x0F == 0x0F, c := old.c })

/-- `v - 1` with the flags of DEC r8; C is the old one (40_source_named.md R83). -/
def dec8 (v : Byte) (old : Flags) : Byte × Flags :=
  let r := v - 1
  (r, { z := r == 0, n := true, h := v &&& 0x0F == 0x00, c := old.c })

/-- The flags of BIT b,r8; C is the old one (40_source_named.md R85). -/
def bitTest (b : BitVec 3) (v : Byte) (old : Flags) : Flags :=
  { z := !v.getLsbD b.toNat, n := false, h := true, c := old.c }

/-- The adjustment and the new carry of DAA (43_ext_alu8.md R136). -/
def daaAdjust (a : Byte) (old : Flags) : Nat × Bool :=
  if old.n then
    ((if old.h then 0x06 else 0) + (if old.c then 0x60 else 0), old.c)
  else
    let low := if old.h || decide (a.toNat % 16 > 0x09) then 0x06 else 0
    if old.c || decide (a.toNat > 0x99) then (low + 0x60, true) else (low, old.c)

/-- DAA: result and flags; N is the old one (43_ext_alu8.md R136). -/
def daa8 (a : Byte) (old : Flags) : Byte × Flags :=
  let adj := daaAdjust a old
  let r := if old.n then a - BitVec.ofNat 8 adj.1 else a + BitVec.ofNat 8 adj.1
  (r, { z := r == 0, n := old.n, h := false, c := adj.2 })

/-! ### 16-bit arithmetic -/

/-- `hl + w` with the flags of ADD HL,rr; Z is the old one (44_ext_alu16.md R142). -/
def add16 (hl w : Word) (old : Flags) : Word × Flags :=
  (BitVec.ofNat 16 (hl.toNat + w.toNat),
    { z := old.z, n := false,
      h := decide (hl.toNat % 0x1000 + w.toNat % 0x1000 > 0x0FFF),
      c := decide (hl.toNat + w.toNat > 0xFFFF) })

/-- `sp + sext_16(e)` with the flags of LD HL,SP+e8 and ADD SP,e8: the carries out of bit 3 and bit 7
of the low byte plus the raw displacement (42_ext_load16.md R122, 44_ext_alu16.md R143). -/
def addSigned (sp : Word) (e : Byte) : Word × Flags :=
  (sp + sext16 e,
    { z := false, n := false,
      h := decide (sp.toNat % 0x10 + e.toNat % 0x10 > 0x0F),
      c := decide (sp.toNat % 0x100 + e.toNat > 0xFF) })

/-! ### Rotates and shifts (45_ext_rotate_shift_bit.md): the result and the bit moved into C -/

/-- Bit 0 or bit 7 alone, from a carry. -/
def carryAt (pos : Nat) (c : Bool) : Byte := if c then BitVec.twoPow 8 pos else 0

/-- Rotate left, circular (R150, R154). -/
def rotL (v : Byte) : Byte × Bool := (v <<< 1 ||| carryAt 0 (v.getLsbD 7), v.getLsbD 7)

/-- Rotate right, circular (R152, R155). -/
def rotR (v : Byte) : Byte × Bool := (v >>> 1 ||| carryAt 7 (v.getLsbD 0), v.getLsbD 0)

/-- Rotate left through the carry (R151, R156). -/
def rotLC (v : Byte) (c : Bool) : Byte × Bool := (v <<< 1 ||| carryAt 0 c, v.getLsbD 7)

/-- Rotate right through the carry (R153, R157). -/
def rotRC (v : Byte) (c : Bool) : Byte × Bool := (v >>> 1 ||| carryAt 7 c, v.getLsbD 0)

/-- Shift left arithmetic (R158). -/
def shiftLA (v : Byte) : Byte × Bool := (v <<< 1, v.getLsbD 7)

/-- Shift right arithmetic, bit 7 kept (R159). -/
def shiftRA (v : Byte) : Byte × Bool := (v >>> 1 ||| (v &&& 0x80), v.getLsbD 0)

/-- Shift right logical (R161). -/
def shiftRL (v : Byte) : Byte × Bool := (v >>> 1, v.getLsbD 0)

/-- Exchange the nibbles; C becomes 0 (R160). -/
def swapNibbles (v : Byte) : Byte × Bool := (v <<< 4 ||| v >>> 4, false)

/-- The flags of a prefixed rotate or shift: Z from the result, N and H 0 (R154 to R161). -/
def shiftFlags (r : Byte × Bool) : Flags := { z := r.1 == 0, n := false, h := false, c := r.2 }

/-- The flags of a one-byte accumulator rotate: Z is 0 whatever the result (R150 to R153). -/
def rotateAFlags (r : Byte × Bool) : Flags := { z := false, n := false, h := false, c := r.2 }

/-- `v and (0xFF xor (1 << b))` (R162). -/
def resetBit (b : BitVec 3) (v : Byte) : Byte := v &&& (0xFF ^^^ BitVec.twoPow 8 b.toNat)

/-- `v or (1 << b)` (R163). -/
def setBit (b : BitVec 3) (v : Byte) : Byte := v ||| BitVec.twoPow 8 b.toNat

end Sys2Proof.Machine
end

