-- ==== Sys2Proof/Machine/Operands.lean ====
section
/-! DEFINITION. Every operand form: the `r8` operand (30_encoding.md R63), the two `rr` tables (R64),
the condition (R65), and the shapes several instructions share. -/

namespace Sys2Proof.Machine

/-! ### The 8-bit operand -/

/-- The value `R8read(code)` returns; none where the read of `(HL)` is fatal (30_encoding.md R63). -/
def State.r8 (s : State) (r : R8) : Option Byte :=
  match r with
  | .b => some s.b | .c => some s.c | .d => some s.d | .e => some s.e
  | .h => some s.h | .l => some s.l | .a => some s.a
  | .mhl => s.busRead s.hl

/-- `R8read(code)` and then `k`, or the raise (30_encoding.md R63). -/
def readR8Then (r : R8) (s : State) (k : Byte → Result) : Result :=
  match r with
  | .b => k s.b | .c => k s.c | .d => k s.d | .e => k s.e
  | .h => k s.h | .l => k s.l | .a => k s.a
  | .mhl => readThen s s.hl k

/-- `R8write(code, v)` and then `k`, or the raise (30_encoding.md R63). -/
def writeR8Then (r : R8) (v : Byte) (s : State) (k : State → Result) : Result :=
  match r with
  | .b => k (s.setReg .b v) | .c => k (s.setReg .c v) | .d => k (s.setReg .d v)
  | .e => k (s.setReg .e v) | .h => k (s.setReg .h v) | .l => k (s.setReg .l v)
  | .a => k (s.setReg .a v)
  | .mhl => writeThen s s.hl v k

/-! ### The 16-bit operands -/

/-- `x[rr]` of table SP (30_encoding.md R64). -/
def State.pairSp (s : State) (rr : PairSp) : Word :=
  match rr with
  | .bc => s.bc | .de => s.de | .hl => s.hl | .sp => s.sp

/-- `x[rr] <- w` of table SP (30_encoding.md R64). -/
def State.setPairSp (s : State) (rr : PairSp) (w : Word) : State :=
  match rr with
  | .bc => s.setBc w | .de => s.setDe w | .hl => s.setHl w | .sp => s.setSp w

/-- `x[rr]` of table AF (30_encoding.md R64). -/
def State.pairAf (s : State) (rr : PairAf) : Word :=
  match rr with
  | .bc => s.bc | .de => s.de | .hl => s.hl | .af => s.af

/-- `x[rr] <- w` of table AF (30_encoding.md R64); AF masks the low nibble of `f`. -/
def State.setPairAf (s : State) (rr : PairAf) (w : Word) : State :=
  match rr with
  | .bc => s.setBc w | .de => s.setDe w | .hl => s.setHl w | .af => s.setAf w

/-! ### The condition, the high page and the branch target -/

/-- `cond(cc)` (30_encoding.md R65). -/
def State.cond (s : State) (cc : Cond) : Bool :=
  match cc with
  | .nz => !s.flags.z | .z => s.flags.z | .nc => !s.flags.c | .c => s.flags.c

/-- `0xFF00 + zext_16(v)` (30_encoding.md R68). -/
def highPage (v : Byte) : Word := 0xFF00 + zext16 v

/-- `pc + 2 + sext_16(e8)` (46_ext_control.md R172). -/
def State.relative (s : State) (e : Byte) : Word := s.pc + 2 + sext16 e

/-! ### Shared shapes -/

/-- `x[A] <- MemRead(addr, 1); len <- k` (41_ext_load8.md). -/
def loadA (addr : Word) (k : Word) (s : State) : Result :=
  readThen s addr fun v => .next ((s.setReg .a v).bumpPc k)

/-- `MemWrite(addr, 1, v); len <- k` (41_ext_load8.md). -/
def store (addr : Word) (v : Byte) (k : Word) (s : State) : Result :=
  writeThen s addr v fun t => .next (t.bumpPc k)

/-- An accumulator operation that stores its result and all four flags (43_ext_alu8.md). -/
def setAcc (r : Byte × Flags) (k : Word) (s : State) : Result :=
  .next (((s.setReg .a r.1).setFlags r.2).bumpPc k)

/-- A read-modify-write of an `r8` operand that stores the result first and the flags after it
(40_source_named.md R82, R83). -/
def modifyR8 (op : Byte → Flags → Byte × Flags) (r : R8) (s : State) : Result :=
  readR8Then r s fun v =>
  writeR8Then r (op v s.flags).1 s fun t => .next ((t.setFlags (op v s.flags).2).bumpPc 1)

/-- A prefixed rotate or shift: the flags are written before the write back, which is last
(45_ext_rotate_shift_bit.md, template). -/
def shiftR8 (op : Byte → Bool → Byte × Bool) (r : R8) (s : State) : Result :=
  readR8Then r s fun v =>
  writeR8Then r (op v s.flags.c).1 (s.setFlags (shiftFlags (op v s.flags.c))) fun t =>
  .next (t.bumpPc 2)

/-- A one-byte accumulator rotate (45_ext_rotate_shift_bit.md R150 to R153). -/
def rotateA (r : Byte × Bool) (s : State) : Result :=
  .next (((s.setReg .a r.1).setFlags (rotateAFlags r)).bumpPc 1)

/-- A prefixed RES or SET: no flag is written (45_ext_rotate_shift_bit.md R162, R163). -/
def updateR8 (op : Byte → Byte) (r : R8) (s : State) : Result :=
  readR8Then r s fun v => writeR8Then r (op v) s fun t => .next (t.bumpPc 2)

/-- Push the return address and go to the target (40_source_named.md R88). -/
def callTo (target retAddr : Word) (s : State) : Result :=
  push16Then retAddr s fun t => .next (t.setPc target)

/-- `pc <- Pop16()` (40_source_named.md R89). -/
def returnTo (s : State) : Result := pop16Then s fun w t => .next (t.setPc w)

/-- `raise UnknownOpcode(key)` (30_encoding.md R71, 60_exceptions.md R202): the latch is set, nothing else. -/
def unknownOpcode (key : Key) (s : State) : Result := .next (s.raise (.unknownOpcode key))

end Sys2Proof.Machine
end

