-- ==== Sys2Proof/Machine/Cost.lean ====
section
/-! DEFINITION. The cycle cost of an instruction: the default table (70_reset_and_hazards.md R250) and
the parameter `COST` over it (00_scope.md R7). -/

namespace Sys2Proof.Machine

/-- One cost for a register operand, another for `(HL)`. -/
def perOperand (r : R8) (register memory : Nat) : Nat := if r = .mhl then memory else register

/-- The default table of 70_reset_and_hazards.md R250; `taken` chooses between its two numbers where it
has two. The thirteen ILLEGAL rows have no cost: they complete no step. -/
def defaultCost (i : Instr) (taken : Bool) : Nat :=
  match i with
  | .nop | .ei | .di => 4
  | .incR8 r | .decR8 r => perOperand r 4 12
  | .cpAR8 r | .xorAR8 r | .addAR8 r | .adcAR8 r | .subAR8 r | .sbcAR8 r | .andAR8 r | .orAR8 r =>
    perOperand r 4 8
  | .cpAN8 _ | .xorAN8 _ | .addAN8 _ | .adcAN8 _ | .subAN8 _ | .sbcAN8 _ | .andAN8 _ | .orAN8 _ => 8
  | .bitBR8 _ r => perOperand r 8 12
  | .pushRr _ => 16
  | .popRr _ => 12
  | .callN16 _ => 24
  | .ret => 16
  | .jpN16 _ => 16
  | .ldRR _ _ => 4
  | .ldRN8 _ _ => 8
  | .ldRHl _ | .ldHlR _ => 8
  | .ldHlN8 _ => 12
  | .ldN16A _ | .ldAN16 _ => 16
  | .ldBcA | .ldDeA | .ldABc | .ldADe => 8
  | .ldhCA | .ldhAC => 8
  | .ldhN8A _ | .ldhAN8 _ => 12
  | .ldHliA | .ldHldA | .ldAHli | .ldAHld => 8
  | .ldRrN16 _ _ => 12
  | .ldN16Sp _ => 20
  | .ldHlSpE8 _ => 12
  | .ldSpHl => 8
  | .daa | .cpl | .scf | .ccf => 4
  | .incRr _ | .decRr _ => 8
  | .addHlRr _ => 8
  | .addSpE8 _ => 16
  | .rlca | .rla | .rrca | .rra => 4
  | .rlcR8 r | .rrcR8 r | .rlR8 r | .rrR8 r | .slaR8 r | .sraR8 r | .swapR8 r | .srlR8 r =>
    perOperand r 8 16
  | .resBR8 _ r | .setBR8 _ r => perOperand r 8 16
  | .jpCcN16 _ _ => if taken then 16 else 12
  | .jpHl => 4
  | .jrE8 _ => 12
  | .jrCcE8 _ _ => if taken then 12 else 8
  | .callCcN16 _ _ => if taken then 24 else 12
  | .retCc _ => if taken then 20 else 8
  | .reti => 16
  | .rstT _ => 16
  | .illegal10 | .illegal76 | .illegalD3 | .illegalDB | .illegalDD | .illegalE3 | .illegalE4
  | .illegalEB | .illegalEC | .illegalED | .illegalF4 | .illegalFC | .illegalFD => 0

/-- Whether the transfer of the instruction is taken in the state it starts in: the condition of a
conditional transfer (46_ext_control.md), true for every other instruction. -/
def taken (i : Instr) (s : State) : Bool :=
  match i with
  | .jpCcN16 cc _ | .jrCcE8 cc _ | .callCcN16 cc _ | .retCc cc => s.cond cc
  | .nop | .ldRrN16 _ _ | .ldBcA | .ldDeA | .ldHliA | .ldHldA | .incRr _ | .incR8 _ | .decR8 _
  | .ldRN8 _ _ | .ldHlN8 _ | .rlca | .rrca | .rla | .rra | .ldN16Sp _ | .addHlRr _ | .ldABc | .ldADe
  | .ldAHli | .ldAHld | .decRr _ | .illegal10 | .jrE8 _ | .daa | .cpl | .scf | .ccf | .ldRR _ _
  | .ldRHl _ | .ldHlR _ | .illegal76 | .addAR8 _ | .adcAR8 _ | .subAR8 _ | .sbcAR8 _ | .andAR8 _
  | .xorAR8 _ | .orAR8 _ | .cpAR8 _ | .popRr _ | .jpN16 _ | .pushRr _ | .addAN8 _ | .adcAN8 _
  | .subAN8 _ | .sbcAN8 _ | .andAN8 _ | .xorAN8 _ | .orAN8 _ | .cpAN8 _ | .rstT _ | .ret
  | .callN16 _ | .reti | .ldhN8A _ | .ldhAN8 _ | .ldhCA | .ldhAC | .addSpE8 _ | .jpHl | .ldN16A _
  | .ldAN16 _ | .di | .ei | .ldHlSpE8 _ | .ldSpHl | .illegalD3 | .illegalDB | .illegalDD
  | .illegalE3 | .illegalE4 | .illegalEB | .illegalEC | .illegalED | .illegalF4 | .illegalFC
  | .illegalFD | .rlcR8 _ | .rrcR8 _ | .rlR8 _ | .rrR8 _ | .slaR8 _ | .sraR8 _ | .swapR8 _
  | .srlR8 _ | .bitBR8 _ _ | .resBR8 _ _ | .setBR8 _ _ => true

/-- `COST(row, taken)`: the launch's entry for the row, else the default table (00_scope.md R7). -/
def Launch.cost (p : Launch) (i : Instr) (taken : Bool) : Nat :=
  match p.costs.find? fun entry => entry.key == i.key && entry.taken == taken with
  | some entry => entry.cycles
  | none => defaultCost i taken

end Sys2Proof.Machine
end

