-- ==== Sys2Proof/Machine/Alu16.lean ====
section
/-! DEFINITION. The meanings of the 16-bit arithmetic instructions (44_ext_alu16.md R140 to R143). None touches memory. -/

namespace Sys2Proof.Machine

/-- INC rr (R140): no flag. -/
def execIncRr (rr : PairSp) (s : State) : Result :=
  .next ((s.setPairSp rr (s.pairSp rr + 1)).bumpPc 1)

/-- DEC rr (R141): no flag. -/
def execDecRr (rr : PairSp) (s : State) : Result :=
  .next ((s.setPairSp rr (s.pairSp rr - 1)).bumpPc 1)

/-- ADD HL,rr (R142). -/
def execAddHlRr (rr : PairSp) (s : State) : Result :=
  let r := add16 s.hl (s.pairSp rr) s.flags
  .next (((s.setHl r.1).setFlags r.2).bumpPc 1)

/-- ADD SP,e8 (R143). -/
def execAddSpE8 (e : Byte) (s : State) : Result :=
  let r := addSigned s.sp e
  .next (((s.setSp r.1).setFlags r.2).bumpPc 2)

end Sys2Proof.Machine
end

