-- ==== Sys2Proof/Machine/Alu8.lean ====
section
/-! DEFINITION. The meanings of the 8-bit arithmetic and logic instructions (40_source_named.md R82 to R84, R92,
43_ext_alu8.md R130 to R139). -/

namespace Sys2Proof.Machine

/-- ADD A,r8 (43_ext_alu8.md R130). -/
def execAddAR8 (r : R8) (s : State) : Result :=
  readR8Then r s fun v => setAcc (add8 s.a v false) 1 s

/-- ADD A,n8 (43_ext_alu8.md R130). -/
def execAddAN8 (n : Byte) (s : State) : Result := setAcc (add8 s.a n false) 2 s

/-- ADC A,r8 (43_ext_alu8.md R131). -/
def execAdcAR8 (r : R8) (s : State) : Result :=
  readR8Then r s fun v => setAcc (add8 s.a v s.flags.c) 1 s

/-- ADC A,n8 (43_ext_alu8.md R131). -/
def execAdcAN8 (n : Byte) (s : State) : Result := setAcc (add8 s.a n s.flags.c) 2 s

/-- SUB A,r8 (43_ext_alu8.md R132). -/
def execSubAR8 (r : R8) (s : State) : Result :=
  readR8Then r s fun v => setAcc (sub8 s.a v false) 1 s

/-- SUB A,n8 (43_ext_alu8.md R132). -/
def execSubAN8 (n : Byte) (s : State) : Result := setAcc (sub8 s.a n false) 2 s

/-- SBC A,r8 (43_ext_alu8.md R133). -/
def execSbcAR8 (r : R8) (s : State) : Result :=
  readR8Then r s fun v => setAcc (sub8 s.a v s.flags.c) 1 s

/-- SBC A,n8 (43_ext_alu8.md R133). -/
def execSbcAN8 (n : Byte) (s : State) : Result := setAcc (sub8 s.a n s.flags.c) 2 s

/-- AND A,r8 (43_ext_alu8.md R134). -/
def execAndAR8 (r : R8) (s : State) : Result :=
  readR8Then r s fun v => setAcc (and8 s.a v) 1 s

/-- AND A,n8 (43_ext_alu8.md R134). -/
def execAndAN8 (n : Byte) (s : State) : Result := setAcc (and8 s.a n) 2 s

/-- XOR A,r8 (40_source_named.md R92). -/
def execXorAR8 (r : R8) (s : State) : Result :=
  readR8Then r s fun v => setAcc (xor8 s.a v) 1 s

/-- XOR A,n8 (40_source_named.md R92). -/
def execXorAN8 (n : Byte) (s : State) : Result := setAcc (xor8 s.a n) 2 s

/-- OR A,r8 (43_ext_alu8.md R135). -/
def execOrAR8 (r : R8) (s : State) : Result :=
  readR8Then r s fun v => setAcc (or8 s.a v) 1 s

/-- OR A,n8 (43_ext_alu8.md R135). -/
def execOrAN8 (n : Byte) (s : State) : Result := setAcc (or8 s.a n) 2 s

/-- CP A,r8 (40_source_named.md R84): the flags of the subtraction, nothing stored. -/
def execCpAR8 (r : R8) (s : State) : Result :=
  readR8Then r s fun v => .next ((s.setFlags (sub8 s.a v false).2).bumpPc 1)

/-- CP A,n8 (40_source_named.md R84): the flags of the subtraction, nothing stored. -/
def execCpAN8 (n : Byte) (s : State) : Result :=
  .next ((s.setFlags (sub8 s.a n false).2).bumpPc 2)

/-- INC r8 (40_source_named.md R82). -/
def execIncR8 (r : R8) (s : State) : Result := modifyR8 inc8 r s

/-- DEC r8 (40_source_named.md R83). -/
def execDecR8 (r : R8) (s : State) : Result := modifyR8 dec8 r s

/-- DAA (43_ext_alu8.md R136). -/
def execDaa (s : State) : Result := setAcc (daa8 s.a s.flags) 1 s

/-- CPL (43_ext_alu8.md R137): N and H written 1, Z and C kept. -/
def execCpl (s : State) : Result :=
  setAcc (s.a ^^^ 0xFF, { s.flags with n := true, h := true }) 1 s

/-- SCF (43_ext_alu8.md R138): Z kept. -/
def execScf (s : State) : Result :=
  .next ((s.setFlags { z := s.flags.z, n := false, h := false, c := true }).bumpPc 1)

/-- CCF (43_ext_alu8.md R139): Z kept. -/
def execCcf (s : State) : Result :=
  .next ((s.setFlags { z := s.flags.z, n := false, h := false, c := !s.flags.c }).bumpPc 1)

end Sys2Proof.Machine
end

