-- ==== Sys2Proof/Machine/Control.lean ====
section
/-! DEFINITION. The meanings of the stack, jump, call and return instructions (40_source_named.md R86 to R90,
46_ext_control.md R170 to R177). None but POP AF writes a flag. -/

namespace Sys2Proof.Machine

/-- PUSH rr (40_source_named.md R86). -/
def execPushRr (rr : PairAf) (s : State) : Result :=
  push16Then (s.pairAf rr) s fun t => .next (t.bumpPc 1)

/-- POP rr (40_source_named.md R87). -/
def execPopRr (rr : PairAf) (s : State) : Result :=
  pop16Then s fun w t => .next ((t.setPairAf rr w).bumpPc 1)

/-- CALL n16 (40_source_named.md R88). -/
def execCallN16 (n : Word) (s : State) : Result := callTo n (s.pc + 3) s

/-- RET (40_source_named.md R89): `ime` is not touched. -/
def execRet (s : State) : Result := returnTo s

/-- JP n16 (40_source_named.md R90). -/
def execJpN16 (n : Word) (s : State) : Result := .next (s.setPc n)

/-- JP cc,n16 (R170). -/
def execJpCcN16 (cc : Cond) (n : Word) (s : State) : Result :=
  if s.cond cc then .next (s.setPc n) else .next (s.bumpPc 3)

/-- JP HL (R171): the pair's value, no memory read. -/
def execJpHl (s : State) : Result := .next (s.setPc s.hl)

/-- JR e8 (R172). -/
def execJrE8 (e : Byte) (s : State) : Result := .next (s.setPc (s.relative e))

/-- JR cc,e8 (R173). -/
def execJrCcE8 (cc : Cond) (e : Byte) (s : State) : Result :=
  if s.cond cc then .next (s.setPc (s.relative e)) else .next (s.bumpPc 2)

/-- CALL cc,n16 (R174). -/
def execCallCcN16 (cc : Cond) (n : Word) (s : State) : Result :=
  if s.cond cc then callTo n (s.pc + 3) s else .next (s.bumpPc 3)

/-- RET cc (R175). -/
def execRetCc (cc : Cond) (s : State) : Result :=
  if s.cond cc then returnTo s else .next (s.bumpPc 1)

/-- RETI (R176): enables at once. -/
def execReti (s : State) : Result := returnEnabled s

/-- RST t (R177): the target is `8 * ttt`. -/
def execRstT (t : BitVec 3) (s : State) : Result :=
  callTo (BitVec.ofNat 16 (8 * t.toNat)) (s.pc + 1) s

end Sys2Proof.Machine
end

