-- ==== Sys2Proof/Machine/Load16.lean ====
section
/-! DEFINITION. The meanings of the 16-bit loads (42_ext_load16.md R120 to R123). -/

namespace Sys2Proof.Machine

/-- LD rr,n16 (R120). -/
def execLdRrN16 (rr : PairSp) (n : Word) (s : State) : Result :=
  .next ((s.setPairSp rr n).bumpPc 3)

/-- LD (n16),SP (R121): the low byte first. -/
def execLdN16Sp (n : Word) (s : State) : Result :=
  writeThen s n (lo8 s.sp) fun s₁ =>
  writeThen s₁ (n + 1) (hi8 s.sp) fun s₂ => .next (s₂.bumpPc 3)

/-- LD HL,SP+e8 (R122). -/
def execLdHlSpE8 (e : Byte) (s : State) : Result :=
  let r := addSigned s.sp e
  .next (((s.setHl r.1).setFlags r.2).bumpPc 2)

/-- LD SP,HL (R123). -/
def execLdSpHl (s : State) : Result := .next ((s.setSp s.hl).bumpPc 1)

end Sys2Proof.Machine
end

