-- ==== Sys2Proof/Machine/Load8.lean ====
section
/-! DEFINITION. The meanings of the 8-bit loads (41_ext_load8.md R100 to R118). None writes a flag. -/

namespace Sys2Proof.Machine

/-- LD r,r' (R100). -/
def execLdRR (dst src : R8) (s : State) : Result :=
  readR8Then src s fun v => writeR8Then dst v s fun t => .next (t.bumpPc 1)

/-- LD r,n8 (R101). -/
def execLdRN8 (dst : R8) (n : Byte) (s : State) : Result :=
  writeR8Then dst n s fun t => .next (t.bumpPc 2)

/-- LD r,(HL) (R102): the address is the old `HL`. -/
def execLdRHl (dst : R8) (s : State) : Result :=
  readThen s s.hl fun v => writeR8Then dst v s fun t => .next (t.bumpPc 1)

/-- LD (HL),r (R103). -/
def execLdHlR (src : R8) (s : State) : Result :=
  readR8Then src s fun v => store s.hl v 1 s

/-- LD (HL),n8 (R104). -/
def execLdHlN8 (n : Byte) (s : State) : Result := store s.hl n 2 s

/-- LD (n16),A (R105). -/
def execLdN16A (n : Word) (s : State) : Result := store n s.a 3 s

/-- LD (BC),A (R106). -/
def execLdBcA (s : State) : Result := store s.bc s.a 1 s

/-- LD (DE),A (R107). -/
def execLdDeA (s : State) : Result := store s.de s.a 1 s

/-- LD A,(BC) (R108). -/
def execLdABc (s : State) : Result := loadA s.bc 1 s

/-- LD A,(DE) (R109). -/
def execLdADe (s : State) : Result := loadA s.de 1 s

/-- LD A,(n16) (R114). -/
def execLdAN16 (n : Word) (s : State) : Result := loadA n 3 s

/-- LDH (C),A (R110). -/
def execLdhCA (s : State) : Result := store (highPage s.c) s.a 1 s

/-- LDH A,(C) (R111). -/
def execLdhAC (s : State) : Result := loadA (highPage s.c) 1 s

/-- LDH (n8),A (R112). -/
def execLdhN8A (n : Byte) (s : State) : Result := store (highPage n) s.a 2 s

/-- LDH A,(n8) (R113). -/
def execLdhAN8 (n : Byte) (s : State) : Result := loadA (highPage n) 2 s

/-- LD (HL+),A (R115): `HL` moves only after the write. -/
def execLdHliA (s : State) : Result :=
  writeThen s s.hl s.a fun t => .next ((t.setHl (t.hl + 1)).bumpPc 1)

/-- LD (HL-),A (R116): `HL` moves only after the write. -/
def execLdHldA (s : State) : Result :=
  writeThen s s.hl s.a fun t => .next ((t.setHl (t.hl - 1)).bumpPc 1)

/-- LD A,(HL+) (R117): `HL` moves only after the read. -/
def execLdAHli (s : State) : Result :=
  readThen s s.hl fun v => .next (((s.setReg .a v).setHl (s.hl + 1)).bumpPc 1)

/-- LD A,(HL-) (R118): `HL` moves only after the read. -/
def execLdAHld (s : State) : Result :=
  readThen s s.hl fun v => .next (((s.setReg .a v).setHl (s.hl - 1)).bumpPc 1)

end Sys2Proof.Machine
end

