-- ==== Sys2Proof/Machine/Rotate.lean ====
section
/-! DEFINITION. The meanings of the rotates, shifts, SWAP, BIT, RES and SET (45_ext_rotate_shift_bit.md R150 to R163,
40_source_named.md R85). -/

namespace Sys2Proof.Machine

/-- RLCA (R150). -/
def execRlca (s : State) : Result := rotateA (rotL s.a) s

/-- RLA (R151). -/
def execRla (s : State) : Result := rotateA (rotLC s.a s.flags.c) s

/-- RRCA (R152). -/
def execRrca (s : State) : Result := rotateA (rotR s.a) s

/-- RRA (R153). -/
def execRra (s : State) : Result := rotateA (rotRC s.a s.flags.c) s

/-- RLC r8 (R154). -/
def execRlcR8 (r : R8) (s : State) : Result := shiftR8 (fun v _ => rotL v) r s

/-- RRC r8 (R155). -/
def execRrcR8 (r : R8) (s : State) : Result := shiftR8 (fun v _ => rotR v) r s

/-- RL r8 (R156). -/
def execRlR8 (r : R8) (s : State) : Result := shiftR8 rotLC r s

/-- RR r8 (R157). -/
def execRrR8 (r : R8) (s : State) : Result := shiftR8 rotRC r s

/-- SLA r8 (R158). -/
def execSlaR8 (r : R8) (s : State) : Result := shiftR8 (fun v _ => shiftLA v) r s

/-- SRA r8 (R159). -/
def execSraR8 (r : R8) (s : State) : Result := shiftR8 (fun v _ => shiftRA v) r s

/-- SWAP r8 (R160). -/
def execSwapR8 (r : R8) (s : State) : Result := shiftR8 (fun v _ => swapNibbles v) r s

/-- SRL r8 (R161). -/
def execSrlR8 (r : R8) (s : State) : Result := shiftR8 (fun v _ => shiftRL v) r s

/-- BIT b,r8 (40_source_named.md R85): only flags are written. -/
def execBitBR8 (b : BitVec 3) (r : R8) (s : State) : Result :=
  readR8Then r s fun v => .next ((s.setFlags (bitTest b v s.flags)).bumpPc 2)

/-- RES b,r8 (R162). -/
def execResBR8 (b : BitVec 3) (r : R8) (s : State) : Result := updateR8 (resetBit b) r s

/-- SET b,r8 (R163). -/
def execSetBR8 (b : BitVec 3) (r : R8) (s : State) : Result := updateR8 (setBit b) r s

end Sys2Proof.Machine
end

