-- ==== Sys2Proof/Machine/System.lean ====
section
/-! DEFINITION. The meanings of NOP, EI and DI (40_source_named.md R80, R81, R91) and of the thirteen unrecognized
keys, which raise `UnknownOpcode` (30_encoding.md R71). -/

namespace Sys2Proof.Machine

/-- NOP (R91). -/
def execNop (s : State) : Result := .next (s.bumpPc 1)

/-- EI (R80): only the pending enable is set; the step that follows enables (60_exceptions.md R216). -/
def execEi (s : State) : Result := .next (({ s with imePending := true } : State).bumpPc 1)

/-- DI (R81): `ime` and the pending enable are cleared at once. -/
def execDi (s : State) : Result := .next ((s.setMasterEnable false).bumpPc 1)

/-- The byte 0x10 (STOP of the family, not admitted): unrecognized (30_encoding.md R71). -/
def execIllegal10 (s : State) : Result := unknownOpcode ⟨false, 0x10⟩ s

/-- The byte 0x76 (HALT of the family, not admitted): unrecognized (30_encoding.md R71). -/
def execIllegal76 (s : State) : Result := unknownOpcode ⟨false, 0x76⟩ s

/-- The byte 0xD3: unrecognized (30_encoding.md R71). -/
def execIllegalD3 (s : State) : Result := unknownOpcode ⟨false, 0xD3⟩ s

/-- The byte 0xDB: unrecognized (30_encoding.md R71). -/
def execIllegalDB (s : State) : Result := unknownOpcode ⟨false, 0xDB⟩ s

/-- The byte 0xDD: unrecognized (30_encoding.md R71). -/
def execIllegalDD (s : State) : Result := unknownOpcode ⟨false, 0xDD⟩ s

/-- The byte 0xE3: unrecognized (30_encoding.md R71). -/
def execIllegalE3 (s : State) : Result := unknownOpcode ⟨false, 0xE3⟩ s

/-- The byte 0xE4: unrecognized (30_encoding.md R71). -/
def execIllegalE4 (s : State) : Result := unknownOpcode ⟨false, 0xE4⟩ s

/-- The byte 0xEB: unrecognized (30_encoding.md R71). -/
def execIllegalEB (s : State) : Result := unknownOpcode ⟨false, 0xEB⟩ s

/-- The byte 0xEC: unrecognized (30_encoding.md R71). -/
def execIllegalEC (s : State) : Result := unknownOpcode ⟨false, 0xEC⟩ s

/-- The byte 0xED: unrecognized (30_encoding.md R71). -/
def execIllegalED (s : State) : Result := unknownOpcode ⟨false, 0xED⟩ s

/-- The byte 0xF4: unrecognized (30_encoding.md R71). -/
def execIllegalF4 (s : State) : Result := unknownOpcode ⟨false, 0xF4⟩ s

/-- The byte 0xFC: unrecognized (30_encoding.md R71). -/
def execIllegalFC (s : State) : Result := unknownOpcode ⟨false, 0xFC⟩ s

/-- The byte 0xFD: unrecognized (30_encoding.md R71). -/
def execIllegalFD (s : State) : Result := unknownOpcode ⟨false, 0xFD⟩ s

end Sys2Proof.Machine
end

