-- ==== Sys2Proof/Machine/Dispatch.lean ====
section
/-! DEFINITION. The dispatch of an instruction to its meaning, one arm per constructor of `Instr`. -/

namespace Sys2Proof.Machine

/-- The execute phase with the `pc` advance: the rule of the instruction (60_exceptions.md R200 part 4). -/
def exec (i : Instr) (s : State) : Host.Outcome State Fault Refusal :=
  match i with
  | .nop => Sys2Proof.Machine.execNop s
  | .ldRrN16 rr n => Sys2Proof.Machine.execLdRrN16 rr n s
  | .ldBcA => Sys2Proof.Machine.execLdBcA s
  | .ldDeA => Sys2Proof.Machine.execLdDeA s
  | .ldHliA => Sys2Proof.Machine.execLdHliA s
  | .ldHldA => Sys2Proof.Machine.execLdHldA s
  | .incRr rr => Sys2Proof.Machine.execIncRr rr s
  | .incR8 r => Sys2Proof.Machine.execIncR8 r s
  | .decR8 r => Sys2Proof.Machine.execDecR8 r s
  | .ldRN8 dst n => Sys2Proof.Machine.execLdRN8 dst n s
  | .ldHlN8 n => Sys2Proof.Machine.execLdHlN8 n s
  | .rlca => Sys2Proof.Machine.execRlca s
  | .rrca => Sys2Proof.Machine.execRrca s
  | .rla => Sys2Proof.Machine.execRla s
  | .rra => Sys2Proof.Machine.execRra s
  | .ldN16Sp n => Sys2Proof.Machine.execLdN16Sp n s
  | .addHlRr rr => Sys2Proof.Machine.execAddHlRr rr s
  | .ldABc => Sys2Proof.Machine.execLdABc s
  | .ldADe => Sys2Proof.Machine.execLdADe s
  | .ldAHli => Sys2Proof.Machine.execLdAHli s
  | .ldAHld => Sys2Proof.Machine.execLdAHld s
  | .decRr rr => Sys2Proof.Machine.execDecRr rr s
  | .illegal10 => Sys2Proof.Machine.execIllegal10 s
  | .jrE8 e => Sys2Proof.Machine.execJrE8 e s
  | .jrCcE8 cc e => Sys2Proof.Machine.execJrCcE8 cc e s
  | .daa => Sys2Proof.Machine.execDaa s
  | .cpl => Sys2Proof.Machine.execCpl s
  | .scf => Sys2Proof.Machine.execScf s
  | .ccf => Sys2Proof.Machine.execCcf s
  | .ldRR dst src => Sys2Proof.Machine.execLdRR dst src s
  | .ldRHl dst => Sys2Proof.Machine.execLdRHl dst s
  | .ldHlR src => Sys2Proof.Machine.execLdHlR src s
  | .illegal76 => Sys2Proof.Machine.execIllegal76 s
  | .addAR8 r => Sys2Proof.Machine.execAddAR8 r s
  | .adcAR8 r => Sys2Proof.Machine.execAdcAR8 r s
  | .subAR8 r => Sys2Proof.Machine.execSubAR8 r s
  | .sbcAR8 r => Sys2Proof.Machine.execSbcAR8 r s
  | .andAR8 r => Sys2Proof.Machine.execAndAR8 r s
  | .xorAR8 r => Sys2Proof.Machine.execXorAR8 r s
  | .orAR8 r => Sys2Proof.Machine.execOrAR8 r s
  | .cpAR8 r => Sys2Proof.Machine.execCpAR8 r s
  | .retCc cc => Sys2Proof.Machine.execRetCc cc s
  | .popRr rr => Sys2Proof.Machine.execPopRr rr s
  | .jpCcN16 cc n => Sys2Proof.Machine.execJpCcN16 cc n s
  | .jpN16 n => Sys2Proof.Machine.execJpN16 n s
  | .callCcN16 cc n => Sys2Proof.Machine.execCallCcN16 cc n s
  | .pushRr rr => Sys2Proof.Machine.execPushRr rr s
  | .addAN8 n => Sys2Proof.Machine.execAddAN8 n s
  | .adcAN8 n => Sys2Proof.Machine.execAdcAN8 n s
  | .subAN8 n => Sys2Proof.Machine.execSubAN8 n s
  | .sbcAN8 n => Sys2Proof.Machine.execSbcAN8 n s
  | .andAN8 n => Sys2Proof.Machine.execAndAN8 n s
  | .xorAN8 n => Sys2Proof.Machine.execXorAN8 n s
  | .orAN8 n => Sys2Proof.Machine.execOrAN8 n s
  | .cpAN8 n => Sys2Proof.Machine.execCpAN8 n s
  | .rstT t => Sys2Proof.Machine.execRstT t s
  | .ret => Sys2Proof.Machine.execRet s
  | .callN16 n => Sys2Proof.Machine.execCallN16 n s
  | .reti => Sys2Proof.Machine.execReti s
  | .ldhN8A n => Sys2Proof.Machine.execLdhN8A n s
  | .ldhAN8 n => Sys2Proof.Machine.execLdhAN8 n s
  | .ldhCA => Sys2Proof.Machine.execLdhCA s
  | .ldhAC => Sys2Proof.Machine.execLdhAC s
  | .addSpE8 e => Sys2Proof.Machine.execAddSpE8 e s
  | .jpHl => Sys2Proof.Machine.execJpHl s
  | .ldN16A n => Sys2Proof.Machine.execLdN16A n s
  | .ldAN16 n => Sys2Proof.Machine.execLdAN16 n s
  | .di => Sys2Proof.Machine.execDi s
  | .ei => Sys2Proof.Machine.execEi s
  | .ldHlSpE8 e => Sys2Proof.Machine.execLdHlSpE8 e s
  | .ldSpHl => Sys2Proof.Machine.execLdSpHl s
  | .illegalD3 => Sys2Proof.Machine.execIllegalD3 s
  | .illegalDB => Sys2Proof.Machine.execIllegalDB s
  | .illegalDD => Sys2Proof.Machine.execIllegalDD s
  | .illegalE3 => Sys2Proof.Machine.execIllegalE3 s
  | .illegalE4 => Sys2Proof.Machine.execIllegalE4 s
  | .illegalEB => Sys2Proof.Machine.execIllegalEB s
  | .illegalEC => Sys2Proof.Machine.execIllegalEC s
  | .illegalED => Sys2Proof.Machine.execIllegalED s
  | .illegalF4 => Sys2Proof.Machine.execIllegalF4 s
  | .illegalFC => Sys2Proof.Machine.execIllegalFC s
  | .illegalFD => Sys2Proof.Machine.execIllegalFD s
  | .rlcR8 r => Sys2Proof.Machine.execRlcR8 r s
  | .rrcR8 r => Sys2Proof.Machine.execRrcR8 r s
  | .rlR8 r => Sys2Proof.Machine.execRlR8 r s
  | .rrR8 r => Sys2Proof.Machine.execRrR8 r s
  | .slaR8 r => Sys2Proof.Machine.execSlaR8 r s
  | .sraR8 r => Sys2Proof.Machine.execSraR8 r s
  | .swapR8 r => Sys2Proof.Machine.execSwapR8 r s
  | .srlR8 r => Sys2Proof.Machine.execSrlR8 r s
  | .bitBR8 b r => Sys2Proof.Machine.execBitBR8 b r s
  | .resBR8 b r => Sys2Proof.Machine.execResBR8 b r s
  | .setBR8 b r => Sys2Proof.Machine.execSetBR8 b r s

end Sys2Proof.Machine
end

