-- ==== Sys2Proof/Machine/Fetch.lean ====
section
/-! DEFINITION. Fetch and decode through the bus (30_encoding.md R60, R68, R69; 60_exceptions.md R202),
and placing an instruction where the next step fetches it. -/

namespace Sys2Proof.Machine

/-- The operand bytes of a form read at `pc + 1` (and `pc + 2`), the low byte of `n16` first
(30_encoding.md R68). -/
def operandsThen (fm : Form) (s : State) (k : Instr → Result) : Result :=
  match fm with
  | .op i => k i
  | .opN8 mk => readThen s (s.pc + 1) fun n => k (mk n)
  | .opN16 mk =>
    readThen s (s.pc + 1) fun lo => readThen s (s.pc + 2) fun hi => k (mk (cat hi lo))

/-- Decode of a fetched key: the fatal decode error comes before any operand byte is read
(30_encoding.md R73). A row of group X is missing from the table when `DISPATCH_EXT` is false (R69); an
ILLEGAL row goes on to its own meaning, which raises the same error. -/
def dispatchThen (key : Key) (s : State) (k : Instr → Result) : Result :=
  match rowOf key with
  | none => unknownOpcode key s
  | some row =>
    if row.group = .x ∧ s.launch.dispatchExt = false then unknownOpcode key s
    else operandsThen (row.form key.opcode) s k

/-- Fetch of the key at `pc` and decode (30_encoding.md R60). -/
def fetchThen (s : State) (k : Instr → Result) : Result :=
  readThen s s.pc fun b0 =>
  if b0 = Config.prefixByte then
    readThen s (s.pc + 1) fun b1 => dispatchThen ⟨true, b1⟩ s k
  else dispatchThen ⟨false, b0⟩ s k

/-- The `n` bytes the bus answers from `addr` on, none where one of them is unmapped. -/
def State.bytesAt (s : State) (addr : Word) (n : Nat) : Option (List Byte) :=
  match n with
  | 0 => some []
  | n + 1 =>
    match s.busRead addr, State.bytesAt s (addr + 1) n with
    | some v, some vs => some (v :: vs)
    | _, _ => none

/-- Where the next Cpu step fetches: at `pc`, or at the vector of the interrupt it dispatches first. -/
def State.fetchAddr (s : State) : Word :=
  match s.pending with
  | some (_, vector) => vector
  | none => s.pc

/-- Place a byte at an address from outside the machine: into the boot ROM or the cartridge image where
the address is theirs (a cartridge that is too short is extended), else into the cell. -/
def State.plant (s : State) (addr : Word) (v : Byte) : State :=
  match s.route addr with
  | .bootRom o => { s with launch := { s.launch with bootRom := s.launch.bootRom.write o v } }
  | .cartRom o => { s with launch := { s.launch with cart := s.launch.cart.write o v } }
  | .vram o => { s with mem := { s.mem with vram := s.mem.vram.write o v } }
  | .eram o => { s with mem := { s.mem with eram := s.mem.eram.write o v } }
  | .wram o => { s with mem := { s.mem with wram := s.mem.wram.write o v } }
  | .input => { s with mem := { s.mem with input := v } }
  | .io o => { s with mem := { s.mem with io := s.mem.io.write o v } }
  | .hram o => { s with mem := { s.mem with hram := s.mem.hram.write o v } }
  | .ie => { s with mem := { s.mem with ie := v } }
  | .unmapped =>
    if addr.toNat < Config.cartMax then
      { s with launch := { s.launch with cart := s.launch.cart.write addr.toNat v,
                                         cartLen := addr.toNat + 1 } }
    else s

/-- Place bytes at consecutive addresses. -/
def State.plantAll (s : State) (addr : Word) (bs : List Byte) : State :=
  match bs with
  | [] => s
  | v :: rest => State.plantAll (s.plant addr v) (addr + 1) rest

/-- Place an instruction where the next step fetches, and let that step be the Cpu's (log 10). -/
def State.placeFetched (s : State) (bs : List Byte) : State :=
  { s.plantAll s.fetchAddr bs with hostPlan := [] }

end Sys2Proof.Machine
end

