-- ==== Sys2Proof/Machine/Video.lean ====
section
/-! DEFINITION. The video controller: the scanline state machine and its cycle counter
(60_exceptions.md R225 to R229). -/

namespace Sys2Proof.Machine

/-- One cycle of the counter, with the line of the RenderLine event it emits, if any
(60_exceptions.md R227, R229). -/
def Ppu.tick (p : Ppu) : Ppu × Option Nat :=
  let clock := p.clock + 1
  match p.mode with
  | .oamScan =>
    ({ p with clock := clock, mode := if clock = Config.oamCycles then .pixelTransfer else .oamScan },
      none)
  | .pixelTransfer =>
    if clock = Config.oamCycles + Config.transferCycles then
      ({ p with clock := clock, mode := .hblank }, some p.line)
    else ({ p with clock := clock }, none)
  | .hblank =>
    if clock = Config.lineCycles then
      ({ clock := 0, line := p.line + 1,
         mode := if p.line + 1 = Config.visibleLines then .vblank else .oamScan }, none)
    else ({ p with clock := clock }, none)
  | .vblank =>
    if clock = Config.lineCycles then
      if p.line = Config.visibleLines + Config.vblankLines - 1 then
        ({ clock := 0, line := 0, mode := .oamScan }, none)
      else ({ p with clock := 0, line := p.line + 1 }, none)
    else ({ p with clock := clock }, none)

/-- `repeat n times: tick()`, with the lines rendered in order (60_exceptions.md R228). -/
def Ppu.run (n : Nat) (p : Ppu) : Ppu × List Nat :=
  match n with
  | 0 => (p, [])
  | n + 1 =>
    let first := p.tick
    let rest := Ppu.run n first.1
    (rest.1, first.2.toList ++ rest.2)

/-- `advance(n)`: nothing while LCDC bit 7 is 0, else `n` ticks (60_exceptions.md R226, R228). The LCDC
cell is what a bus read of 0xFF40 returns, which never faults (20_memory.md R50). -/
def State.advance (n : Nat) (s : State) : State :=
  if s.lcdc.getLsbD 7 then
    let r := s.ppu.run n
    { s with ppu := r.1, out := { s.out with rendered := s.out.rendered ++ r.2 } }
  else s

end Sys2Proof.Machine
end

