-- ==== Sys2Proof/Machine/CpuStep.lean ====
section
/-! DEFINITION. The step sequence of the Cpu followed by the video controller (60_exceptions.md R200,
R201), and the moves of the host between two steps (R235). -/

namespace Sys2Proof.Machine

/-- Whether the row is DI, which cancels the arming of its own step (60_exceptions.md R200). -/
def isDi (i : Instr) : Bool := i == .di

/-- The delayed enable (60_exceptions.md R200 part 5, R216). -/
def State.delayedEnable (arm : Bool) (s : State) : State := if arm then s.setMasterEnable true else s

/-- The end of a step that did not fault: the delayed enable, the operation count, the returned cycle
count, and the `advance` that gets it (60_exceptions.md R200, R201). -/
def State.finish (arm : Bool) (cycles : Nat) (s : State) : State :=
  let t := s.delayedEnable arm
  ({ t with opCount := t.opCount + 1, out := { t.out with cycles := some cycles } } : State).advance cycles

/-- What follows the execute phase: nothing after a raise (60_exceptions.md R206), else the end of the
step. -/
def afterExec (arm : Bool) (cycles : Nat) (r : Result) : Result :=
  match r with
  | .next t => if t.fault.isSome then .next t else .next (t.finish arm cycles)
  | .fault f => .fault f
  | .refused f => .refused f

/-- Fetch, decode, execute and finish (60_exceptions.md R200 parts 2 to 5): `arm` is the sampled pending
enable, `spent` the cycles of a dispatch already made. -/
def executeThen (arm : Bool) (spent : Nat) (s : State) : Result :=
  fetchThen s fun i =>
  afterExec (arm && !isDi i) (spent + s.launch.cost i (taken i s)) (exec i s)

/-- The state a step starts from: the outputs of the step before are gone. -/
def State.begin (s : State) : State := { s with out := .empty }

/-- One `step()` of the Cpu and the `advance` after it (60_exceptions.md R200, R201). The pending enable
is sampled before anything else; a dispatch cancels it and the handler's first instruction runs in the
same step. -/
def cpuStep (s : State) : Result :=
  match s.pending with
  | some (bit, vector) =>
    serviceThen bit vector s.begin fun t => executeThen false Config.dispatchCost t
  | none => executeThen s.imePending 0 s.begin

/-- `disable_boot()` (20_memory.md R39). -/
def State.disableBoot (s : State) : State := { s with bootMapped := false }

/-- The host's write of the input cell (10_state.md R19). -/
def State.writeInput (s : State) (v : Byte) : State := { s with mem := { s.mem with input := v } }

/-- One transition of the whole block. There is none once the fault is latched (60_exceptions.md R204).
The next move of the host's plan is made: running the loop, unmapping the boot ROM, or writing the
input cell where `HOST_WRITES` allows it (R235); with no move left the host runs the loop. -/
def systemStep (s : State) : Result :=
  match s.fault with
  | some r => .fault (.latched r)
  | none =>
    match s.hostPlan with
    | [] => cpuStep s
    | .run :: plan => cpuStep { s with hostPlan := plan }
    | .disableBoot :: plan => .next { s.begin.disableBoot with hostPlan := plan }
    | .writeInput v :: plan =>
      if s.launch.hostWrites then .next { s.begin.writeInput v with hostPlan := plan }
      else .refused .hostWriteForbidden

end Sys2Proof.Machine
end

