-- ==== Sys2Proof/Machine/Step.lean ====
section
/-! DEFINITION. The step of the machine, and how the host of this package places an instruction to run. -/

namespace Sys2Proof.Machine

/-- One step of the machine: one host move, which is mostly a Cpu step and the `advance` after it
(60_exceptions.md R200, R201, R235). -/
def step (s : State) : Host.Outcome State Fault Refusal := systemStep s

/-- `s` with the instruction of a table word stored where `step` fetches its next instruction: bit 0 of
`w` is the least significant bit of the first byte and the bits from `nbits` on are 0 (log 10). -/
def State.withFetchWord (s : State) (nbits w : Nat) : State := s.placeFetched (wordBytes nbits w)

end Sys2Proof.Machine
end

