-- ==== Sys2Proof/Machine/HostOps.lean ====
section
/-! DEFINITION. What the host and the presentation observer can see (60_exceptions.md R235): the
snapshot, the bulk reader, the points an observer's frame can take, and the diagnostic dump. None of
them changes the machine. -/

namespace Sys2Proof.Machine

/-! ### The register and flag snapshot (10_state.md R23) -/

/-- `a f b c d e h l pc sp` and the four flags. -/
structure Snapshot where
  a : Byte
  f : Byte
  b : Byte
  c : Byte
  d : Byte
  e : Byte
  h : Byte
  l : Byte
  pc : Word
  sp : Word
  flags : Flags
  deriving DecidableEq, Repr

/-- The read-only view of all registers and flags between two steps. -/
def State.snapshot (s : State) : Snapshot :=
  { a := s.a, f := s.f, b := s.b, c := s.c, d := s.d, e := s.e, h := s.h, l := s.l,
    pc := s.pc, sp := s.sp, flags := s.flags }

/-! ### `read_range` (20_memory.md R40) -/

/-- The store a cell belongs to: two cells of one store have the same number. -/
def Route.store (r : Route) : Nat :=
  match r with
  | .bootRom _ => 0 | .cartRom _ => 1 | .vram _ => 2 | .eram _ => 3 | .wram _ => 4
  | .input => 5 | .io _ => 6 | .hram _ => 7 | .ie => 8 | .unmapped => 9

/-- `n` bytes from `addr` on, all from the store numbered `st`; else the first address that is not. -/
def State.readFrom (s : State) (st : Nat) (addr : Word) (n : Nat) : Except Word (List Byte) :=
  match n with
  | 0 => .ok []
  | n + 1 =>
    if (s.route addr).store = st then
      match s.busRead addr, State.readFrom s st (addr + 1) n with
      | some v, .ok vs => .ok (v :: vs)
      | some _, .error x => .error x
      | none, _ => .error addr
    else .error addr

/-- `read_range(start, end)`, both ends included: the bytes in ascending order, or the address that
`UnmappedAddress` carries (20_memory.md R40). A range that is empty, or that leaves the store of its
first address, raises too (log 9). -/
def State.readRange (s : State) (start stop : Word) : Except Word (List Byte) :=
  if start ≤ stop then
    s.readFrom (s.route start).store start (stop.toNat - start.toNat + 1)
  else .error start

/-! ### The observer (20_memory.md R48) -/

/-- The stores after the recorded writes, in order; the decoder is that of `s`. -/
def State.applyWrites (s : State) (m : Stores) (ws : List (Word × Byte)) : Stores :=
  match ws with
  | [] => m
  | w :: rest => State.applyWrites s ((m.put (s.route w.1) w.2).getD m) rest

/-- Every point between two bus accesses that a frame's reads can take during the step from `s` to
`t`: the stores after each prefix of the step's writes (20_memory.md R47, R48; log 8). -/
def State.observerPoints (s t : State) : List Stores :=
  (List.range (t.out.writes.length + 1)).map fun n => s.applyWrites s.mem (t.out.writes.take n)

/-! ### The diagnostic dump (60_exceptions.md R205) -/

/-- What the dump shows; a byte at an unmapped address is absent (`none`). -/
structure Dump where
  opCount : Nat
  code : List (Option Byte)
  registers : Snapshot
  stack : List (Option Byte)
  video : List (Option Byte)
  deriving DecidableEq, Repr

/-- `n` bytes upward from an address modulo 2^16, read through the decoder without raising. -/
def State.peek (s : State) (addr : Word) (n : Nat) : List (Option Byte) :=
  (List.range n).map fun i => s.busRead (addr + BitVec.ofNat 16 i)

/-- `n` bytes of `vram` from an offset on; an offset the store does not have is absent. -/
def State.peekVram (s : State) (offset n : Nat) : List (Option Byte) :=
  (List.range n).map fun i =>
    if offset + i < Config.ramSize then some (s.mem.vram.read (offset + i)) else none

/-- The diagnostic dump, a function of the faulted state (60_exceptions.md R205). -/
def State.dump (s : State) : Dump :=
  { opCount := s.opCount, code := s.peek s.pc 4, registers := s.snapshot,
    stack := s.peek s.sp s.launch.dumpDepth,
    video := s.peekVram s.launch.dumpVramOffset s.launch.dumpDepth }

end Sys2Proof.Machine
end

