-- ==== Sys2Proof/Safety.lean ====
section
/-! DEFINITION. What counts as a good state and a safe run, which addresses the bus answers, and for
each instruction what its rule lets it write: the terms the statements are made of. -/

namespace Sys2Proof.Machine

/-! ### Good states -/

/-- Every store is in canonical form and lists only offsets it has (10_state.md R21). -/
def Stores.wf (m : Stores) : Bool :=
  m.vram.wf && m.vram.within Config.ramSize && m.eram.wf && m.eram.within Config.ramSize &&
  m.wram.wf && m.wram.within Config.ramSize && m.io.wf && m.io.within Config.pageSize &&
  m.hram.wf && m.hram.within Config.pageSize

/-- The invariants of the video controller (10_state.md R20). -/
def Ppu.legal (p : Ppu) : Bool :=
  match p.mode with
  | .oamScan => decide (p.line < 144 ∧ p.clock < 80)
  | .pixelTransfer => decide (p.line < 144 ∧ 80 ≤ p.clock ∧ p.clock < 252)
  | .hblank => decide (p.line < 144 ∧ p.clock < 456)
  | .vblank => decide (144 ≤ p.line ∧ p.line ≤ 153 ∧ p.clock < 456)

/-- What 00_scope.md R7 asks of the launch parameters: a boot ROM of 256 bytes, a cartridge of at most
0x8000 bytes, stores that exist, costs that are positive. -/
def Launch.wf (p : Launch) : Bool :=
  p.bootRom.wf && p.bootRom.within Config.bootSize && p.cart.wf && p.cart.within p.cartLen &&
  decide (p.cartLen ≤ Config.cartMax) && p.initMem.wf && p.costs.all fun entry => decide (0 < entry.cycles)

/-- The invariant of the machine: the low four bits of `f` are zero (10_state.md R12), the stores are
canonical, the video controller is in a legal state (R20), the launch is one of 00_scope.md R7, and the
boot ROM is mapped only if there is one (10_state.md R21). -/
abbrev State.Inv (s : State) : Prop :=
  s.f &&& 0x0F = 0 ∧ s.mem.wf = true ∧ s.ppu.legal = true ∧ s.launch.wf = true ∧
  (s.bootMapped = true → s.launch.bootPresent = true)

/-- A state from which the block still has steps (60_exceptions.md R204). -/
abbrev State.Running (s : State) : Prop := s.fault = none

/-- `n` steps run and none of them latches a fault: a safe run. -/
def SafeFor (n : Nat) (s : State) : Prop :=
  match n with
  | 0 => s.Running
  | n + 1 => s.Running ∧ ∃ t, step s = .next t ∧ SafeFor n t

/-! ### Addresses -/

/-- A write to the address stores a byte: it is at or above 0x8000 and not in 0xFE00 to 0xFEFF
(20_memory.md R36, R37). -/
def writable (addr : Word) : Bool :=
  decide (0x8000 ≤ addr.toNat) && !(decide (0xFE00 ≤ addr.toNat) && decide (addr.toNat ≤ 0xFEFF))

/-- A read of the address returns a byte: a mapped boot ROM address, a cartridge address below
`CART_LEN`, or an address from 0x8000 on that is not in 0xFE00 to 0xFEFF (20_memory.md R35, R37, R38). -/
def State.readable (s : State) (addr : Word) : Bool :=
  if addr.toNat ≤ 0x7FFF then
    decide (addr.toNat ≤ 0xFF) && s.bootMapped || decide (addr.toNat < s.launch.cartLen)
  else writable addr

/-- Every byte reads as before. -/
def State.SameBytes (s t : State) : Prop := ∀ a, t.busRead a = s.busRead a

/-- Every byte reads as before but those in the cells of the listed addresses. -/
def State.SameBytesOutside (s t : State) (as : List Word) : Prop :=
  ∀ a, (∀ x ∈ as, s.route a ≠ s.route x) → t.busRead a = s.busRead a

/-! ### What an instruction may write -/

/-- The register an `r8` destination writes; none for `(HL)`. -/
def R8dests (r : R8) : List Reg :=
  match r with
  | .b => [.b] | .c => [.c] | .d => [.d] | .e => [.e] | .h => [.h] | .l => [.l] | .a => [.a]
  | .mhl => []

/-- The address an `r8` destination stores to; none for a register. -/
def R8stores (r : R8) (s : State) : List Word := if r = .mhl then [s.hl] else []

/-- The registers a pair destination of table SP writes. -/
def pairSpDests (rr : PairSp) : List Reg :=
  match rr with
  | .bc => [.b, .c] | .de => [.d, .e] | .hl => [.h, .l] | .sp => []

/-- The registers a pair destination of table AF writes. -/
def pairAfDests (rr : PairAf) : List Reg :=
  match rr with
  | .bc => [.b, .c] | .de => [.d, .e] | .hl => [.h, .l] | .af => [.a, .f]

/-- The two addresses a push stores to, in the order of its writes (40_source_named.md R86). -/
def pushStores (s : State) : List Word := [s.sp - 1, s.sp - 2]

end Sys2Proof.Machine

namespace Sys2Proof

open Machine

/-- The 8-bit registers other than `f` that the instruction's rule writes (`f` is named by POP AF alone;
its flags are `Instr.flagsWritten`). -/
def Instr.dests : Instr → List Reg
  | .incR8 r | .decR8 r | .rlcR8 r | .rrcR8 r | .rlR8 r | .rrR8 r | .slaR8 r | .sraR8 r
  | .swapR8 r | .srlR8 r | .resBR8 _ r | .setBR8 _ r => R8dests r
  | .ldRN8 dst _ | .ldRR dst _ | .ldRHl dst => R8dests dst
  | .ldABc | .ldADe | .ldAN16 _ | .ldhAC | .ldhAN8 _ => [.a]
  | .ldHliA | .ldHldA => [.h, .l]
  | .ldAHli | .ldAHld => [.a, .h, .l]
  | .ldRrN16 rr _ | .incRr rr | .decRr rr => pairSpDests rr
  | .popRr rr => pairAfDests rr
  | .addHlRr _ | .ldHlSpE8 _ => [.h, .l]
  | .addAR8 _ | .adcAR8 _ | .subAR8 _ | .sbcAR8 _ | .andAR8 _ | .xorAR8 _ | .orAR8 _ | .addAN8 _
  | .adcAN8 _ | .subAN8 _ | .sbcAN8 _ | .andAN8 _ | .xorAN8 _ | .orAN8 _ | .daa | .cpl | .rlca
  | .rrca | .rla | .rra => [.a]
  | .nop | .ldBcA | .ldDeA | .ldHlN8 _ | .ldN16Sp _ | .illegal10 | .jrE8 _ | .jrCcE8 _ _ | .scf
  | .ccf | .ldHlR _ | .illegal76 | .cpAR8 _ | .retCc _ | .jpCcN16 _ _ | .jpN16 _ | .callCcN16 _ _
  | .pushRr _ | .cpAN8 _ | .rstT _ | .ret | .callN16 _ | .reti | .ldhN8A _ | .ldhCA | .addSpE8 _
  | .jpHl | .ldN16A _ | .di | .ei | .ldSpHl | .illegalD3 | .illegalDB | .illegalDD | .illegalE3
  | .illegalE4 | .illegalEB | .illegalEC | .illegalED | .illegalF4 | .illegalFC | .illegalFD
  | .bitBR8 _ _ => []

/-- Whether the instruction's rule writes `sp` (10_state.md R15). -/
def Instr.writesSp : Instr → Bool
  | .ldRrN16 rr _ | .incRr rr | .decRr rr => rr == .sp
  | .addSpE8 _ | .ldSpHl | .pushRr _ | .popRr _ | .callN16 _ | .callCcN16 _ _ | .ret | .retCc _
  | .reti | .rstT _ => true
  | .nop | .ldBcA | .ldDeA | .ldHliA | .ldHldA | .incR8 _ | .decR8 _ | .ldRN8 _ _ | .ldHlN8 _
  | .rlca | .rrca | .rla | .rra | .ldN16Sp _ | .addHlRr _ | .ldABc | .ldADe | .ldAHli | .ldAHld
  | .illegal10 | .jrE8 _ | .jrCcE8 _ _ | .daa | .cpl | .scf | .ccf | .ldRR _ _ | .ldRHl _
  | .ldHlR _ | .illegal76 | .addAR8 _ | .adcAR8 _ | .subAR8 _ | .sbcAR8 _ | .andAR8 _ | .xorAR8 _
  | .orAR8 _ | .cpAR8 _ | .jpCcN16 _ _ | .jpN16 _ | .addAN8 _ | .adcAN8 _ | .subAN8 _ | .sbcAN8 _
  | .andAN8 _ | .xorAN8 _ | .orAN8 _ | .cpAN8 _ | .ldhN8A _ | .ldhAN8 _ | .ldhCA | .ldhAC | .jpHl
  | .ldN16A _ | .ldAN16 _ | .di | .ei | .ldHlSpE8 _ | .illegalD3 | .illegalDB | .illegalDD
  | .illegalE3 | .illegalE4 | .illegalEB | .illegalEC | .illegalED | .illegalF4 | .illegalFC
  | .illegalFD | .rlcR8 _ | .rrcR8 _ | .rlR8 _ | .rrR8 _ | .slaR8 _ | .sraR8 _ | .swapR8 _
  | .srlR8 _ | .bitBR8 _ _ | .resBR8 _ _ | .setBR8 _ _ => false

/-- The flags the `Flags:` line of the instruction's rule names (10_state.md R13): true where it is written. -/
def Instr.flagsWritten : Instr → Flags
  | .incR8 _ | .decR8 _ | .bitBR8 _ _ => ⟨true, true, true, false⟩
  | .addAR8 _ | .adcAR8 _ | .subAR8 _ | .sbcAR8 _ | .andAR8 _ | .xorAR8 _ | .orAR8 _ | .addAN8 _
  | .adcAN8 _ | .subAN8 _ | .sbcAN8 _ | .andAN8 _ | .xorAN8 _ | .orAN8 _ | .cpAR8 _ | .cpAN8 _
  | .ldHlSpE8 _ | .addSpE8 _ | .rlca | .rrca | .rla | .rra | .rlcR8 _ | .rrcR8 _ | .rlR8 _
  | .rrR8 _ | .slaR8 _ | .sraR8 _ | .swapR8 _ | .srlR8 _ => ⟨true, true, true, true⟩
  | .daa => ⟨true, false, true, true⟩
  | .cpl => ⟨false, true, true, false⟩
  | .scf | .ccf | .addHlRr _ => ⟨false, true, true, true⟩
  | .popRr rr => ⟨rr == .af, rr == .af, rr == .af, rr == .af⟩
  | .nop | .ldRrN16 _ _ | .ldBcA | .ldDeA | .ldHliA | .ldHldA | .incRr _ | .ldRN8 _ _ | .ldHlN8 _
  | .ldN16Sp _ | .ldABc | .ldADe | .ldAHli | .ldAHld | .decRr _ | .illegal10 | .jrE8 _
  | .jrCcE8 _ _ | .ldRR _ _ | .ldRHl _ | .ldHlR _ | .illegal76 | .retCc _ | .jpCcN16 _ _
  | .jpN16 _ | .callCcN16 _ _ | .pushRr _ | .rstT _ | .ret | .callN16 _ | .reti | .ldhN8A _
  | .ldhAN8 _ | .ldhCA | .ldhAC | .jpHl | .ldN16A _ | .ldAN16 _ | .di | .ei | .ldSpHl
  | .illegalD3 | .illegalDB | .illegalDD | .illegalE3 | .illegalE4 | .illegalEB | .illegalEC
  | .illegalED | .illegalF4 | .illegalFC | .illegalFD | .resBR8 _ _ | .setBR8 _ _ => ⟨false, false, false, false⟩

/-- The addresses the instruction stores to, in order, computed in the state it starts in. -/
def Instr.storeAddrs (s : State) : Instr → List Word
  | .incR8 r | .decR8 r | .rlcR8 r | .rrcR8 r | .rlR8 r | .rrR8 r | .slaR8 r | .sraR8 r
  | .swapR8 r | .srlR8 r | .resBR8 _ r | .setBR8 _ r => R8stores r s
  | .ldRN8 dst _ | .ldRR dst _ | .ldRHl dst => R8stores dst s
  | .ldHlR _ | .ldHlN8 _ | .ldHliA | .ldHldA => [s.hl]
  | .ldN16A n => [n]
  | .ldBcA => [s.bc]
  | .ldDeA => [s.de]
  | .ldhCA => [highPage s.c]
  | .ldhN8A n => [highPage n]
  | .ldN16Sp n => [n, n + 1]
  | .pushRr _ | .callN16 _ | .rstT _ => pushStores s
  | .callCcN16 cc _ => if s.cond cc then pushStores s else []
  | .nop | .ldRrN16 _ _ | .incRr _ | .rlca | .rrca | .rla | .rra | .addHlRr _ | .ldABc | .ldADe
  | .ldAHli | .ldAHld | .decRr _ | .illegal10 | .jrE8 _ | .jrCcE8 _ _ | .daa | .cpl | .scf | .ccf
  | .illegal76 | .addAR8 _ | .adcAR8 _ | .subAR8 _ | .sbcAR8 _ | .andAR8 _ | .xorAR8 _ | .orAR8 _
  | .cpAR8 _ | .retCc _ | .popRr _ | .jpCcN16 _ _ | .jpN16 _ | .addAN8 _ | .adcAN8 _ | .subAN8 _
  | .sbcAN8 _ | .andAN8 _ | .xorAN8 _ | .orAN8 _ | .cpAN8 _ | .ret | .reti | .ldhAN8 _ | .ldhAC
  | .addSpE8 _ | .jpHl | .ldAN16 _ | .di | .ei | .ldHlSpE8 _ | .ldSpHl | .illegalD3 | .illegalDB
  | .illegalDD | .illegalE3 | .illegalE4 | .illegalEB | .illegalEC | .illegalED | .illegalF4
  | .illegalFC | .illegalFD | .bitBR8 _ _ => []

end Sys2Proof
end

