-- ==== Sys2Proof/Certificates/Slice0/Obligations.lean ====
section
/-! DEFINITION. The statements for the provers. The first part writes the spec's own tables and
formulas as numbers and names the shapes the statements share; each statement's docstring names the
rules it formalises. -/

namespace Sys2Proof.Spec

open Machine

/-! ### The spec's numbers -/

/-- An opcode byte from its number in the tables of 30_encoding.md R70 and R72. -/
def byteOf (n : Nat) : Byte := BitVec.ofNat 8 n

/-- The code table of 30_encoding.md R63. -/
def r8Code : R8 → Nat
  | .b => 0 | .c => 1 | .d => 2 | .e => 3 | .h => 4 | .l => 5 | .mhl => 6 | .a => 7

/-- Table SP of 30_encoding.md R64. -/
def spCode : PairSp → Nat
  | .bc => 0 | .de => 1 | .hl => 2 | .sp => 3

/-- Table AF of 30_encoding.md R64. -/
def afCode : PairAf → Nat
  | .bc => 0 | .de => 1 | .hl => 2 | .af => 3

/-- The code table of 30_encoding.md R65. -/
def ccCode : Cond → Nat
  | .nz => 0 | .z => 1 | .nc => 2 | .c => 3

/-- `flag.Z` (10_state.md R12). -/
def fz (s : State) : Bool := s.f.getLsbD 7

/-- `flag.N` (10_state.md R12). -/
def fn (s : State) : Bool := s.f.getLsbD 6

/-- `flag.H` (10_state.md R12). -/
def fh (s : State) : Bool := s.f.getLsbD 5

/-- `flag.C` (10_state.md R12). -/
def fc (s : State) : Bool := s.f.getLsbD 4

/-- `flag.Z*0x80 + flag.N*0x40 + flag.H*0x20 + flag.C*0x10` (10_state.md R12). -/
def flagByte (z n h c : Bool) : Byte :=
  byteOf (bit z * 0x80 + bit n * 0x40 + bit h * 0x20 + bit c * 0x10)

/-- The low four bits of `f` are zero, as they are in every reachable state (10_state.md R12). -/
def LowNibbleZero (s : State) : Prop := s.f &&& 0x0F = 0

/-- The condition table of 30_encoding.md R65. -/
def condHolds (s : State) : Cond → Bool
  | .nz => !fz s | .z => fz s | .nc => !fc s | .c => fc s

/-! ### Shapes of an instruction's rule -/

/-- The encoding part of a rule: `bs` are the bytes of `i` in memory order, decoding them gives `i`,
the row is in group `g`, and the default `COST` is `cost` for a transfer taken (and for every other
instruction), `untaken` for one not taken. -/
def Coded (i : Instr) (bs : List Byte) (g : Group) (cost untaken : Nat) : Prop :=
  encode i = bs ∧ decode bs = .ok (i, []) ∧
  (∃ row, rowOf i.key = some row ∧ row.group = g) ∧
  ∀ p : Launch, p.costs = [] → p.cost i true = cost ∧ p.cost i false = untaken

/-- `raise UnmappedAddress(a)`: nothing but the latch changes (60_exceptions.md R204). -/
def faulted (s : State) (a : Word) : State := { s with fault := some ⟨.unmappedAddress a, s.pc⟩ }

/-- The instruction reads the byte at `a` and ends in `t` of it, or raises. -/
def ReadsByte (i : Instr) (s : State) (a : Word) (t : Byte → State) : Prop :=
  (s.readable a = true → ∃ v, s.busRead a = some v ∧ exec i s = .next (t v)) ∧
  (s.readable a = false → exec i s = .next (faulted s a))

/-- The instruction stores `v` at `a` and ends in `t` of the state after that write, or raises. -/
def StoresByte (i : Instr) (s : State) (a : Word) (v : Byte) (t : State → State) : Prop :=
  (writable a = true → ∃ u, s.busWrite a v = some u ∧ exec i s = .next (t u)) ∧
  (writable a = false → exec i s = .next (faulted s a))

/-- The instruction reads the `r8` operand and ends in `t` of it; the read of `(HL)` can raise. -/
def UsesOperand (i : Instr) (s : State) (r : R8) (t : Byte → State) : Prop :=
  ((r = .mhl → s.readable s.hl = true) → ∃ v, s.r8 r = some v ∧ exec i s = .next (t v)) ∧
  (r = .mhl → s.readable s.hl = false → exec i s = .next (faulted s s.hl))

/-- `s` with the register of an `r8` code set; `(HL)` is no register. -/
def putReg (s : State) (r : R8) (v : Byte) : State :=
  match r with
  | .b => { s with b := v } | .c => { s with c := v } | .d => { s with d := v }
  | .e => { s with e := v } | .h => { s with h := v } | .l => { s with l := v }
  | .a => { s with a := v } | .mhl => s

/-- The instruction reads the `r8` operand `v`, writes `val v` back and ends in `after v` of the state
after the write. The read of `(HL)` can raise with nothing changed, the write back with the changes of
`before v` made. -/
def ModifiesOperand (i : Instr) (s : State) (r : R8) (val : Byte → Byte) (before : Byte → State)
    (after : Byte → State → State) : Prop :=
  (r ≠ .mhl → ∃ v, s.r8 r = some v ∧ exec i s = .next (after v (putReg s r (val v)))) ∧
  (r = .mhl → s.readable s.hl = false → exec i s = .next (faulted s s.hl)) ∧
  (r = .mhl → s.readable s.hl = true → ∃ v, s.busRead s.hl = some v ∧
    (writable s.hl = true → ∃ u, s.busWrite s.hl (val v) = some u ∧ exec i s = .next (after v u)) ∧
    (writable s.hl = false → exec i s = .next (faulted (before v) s.hl)))

/-- `Push16(w)` from `s` (40_source_named.md R86): the result `res` of what pushes is a raise at either
write, with what came before it kept, or `done` holds of the state after both. -/
def AfterPush (s : State) (w : Word) (res : Result) (done : State → Prop) : Prop :=
  (writable (s.sp - 1) = false →
    res = .next (faulted { s with sp := s.sp - 1 } (s.sp - 1))) ∧
  (writable (s.sp - 1) = true →
    ∃ u, ({ s with sp := s.sp - 1 } : State).busWrite (s.sp - 1) (hi8 w) = some u ∧
      (writable (s.sp - 2) = false →
        res = .next (faulted { u with sp := s.sp - 2 } (s.sp - 2))) ∧
      (writable (s.sp - 2) = true →
        ∃ u', ({ u with sp := s.sp - 2 } : State).busWrite (s.sp - 2) (lo8 w) = some u' ∧ done u'))

/-- `Pop16()` from `s` (40_source_named.md R87): the result is a raise at either read, or `done` holds of the
popped word and the state after both. -/
def AfterPop (s : State) (res : Result) (done : Word → State → Prop) : Prop :=
  (s.readable s.sp = false → res = .next (faulted s s.sp)) ∧
  (s.readable s.sp = true → s.readable (s.sp + 1) = false →
    res = .next (faulted { s with sp := s.sp + 1 } (s.sp + 1))) ∧
  (s.readable s.sp = true → s.readable (s.sp + 1) = true →
    ∃ lo hi, s.busRead s.sp = some lo ∧ s.busRead (s.sp + 1) = some hi ∧
      done (cat hi lo) { s with sp := s.sp + 2 })

/-! ### Shapes of a step -/

/-- The block runs and the host's next move is the loop (60_exceptions.md R201, R204). -/
def CpuTurn (s : State) : Prop :=
  s.fault = none ∧ (s.hostPlan = [] ∨ ∃ plan, s.hostPlan = .run :: plan)

/-- The state the Cpu's step starts from: the host's move is made, the last step's outputs are gone. -/
def begun (s : State) : State := { s with hostPlan := s.hostPlan.tail, out := ⟨none, [], []⟩ }

/-- The bus answers the bytes of `i` from `a` on. -/
def HoldsAt (s : State) (a : Word) (i : Instr) : Prop := s.bytesAt a i.length = some (encode i)

/-- The bus answers the byte or bytes of the key `k` at `a` (30_encoding.md R60). -/
def KeyAt (s : State) (a : Word) (k : Key) : Prop :=
  if k.prefixed then s.busRead a = some 0xCB ∧ s.busRead (a + 1) = some k.opcode
  else s.busRead a = some k.opcode ∧ k.opcode ≠ 0xCB

/-- Every raise of a fetch that starts at the `pc` of `u` (60_exceptions.md R202, R206, R207), where `res` is
the result of the step that fetches there: the first of the key's one or two bytes and the operand
bytes that the bus does not answer is the address recorded, and nothing else of `u` changes. -/
def FetchRaises (u : State) (res : Result) : Prop :=
  (u.readable u.pc = false → res = .next (faulted u u.pc)) ∧
  (u.busRead u.pc = some 0xCB → u.readable (u.pc + 1) = false →
    res = .next (faulted u (u.pc + 1))) ∧
  (∀ i : Instr, i.wellFormed = true → i.key.recognized u.launch.dispatchExt = true →
    i.key.prefixed = false → u.busRead u.pc = some i.key.opcode →
    (2 ≤ i.length → u.readable (u.pc + 1) = false → res = .next (faulted u (u.pc + 1))) ∧
    (i.length = 3 → u.readable (u.pc + 1) = true → u.readable (u.pc + 2) = false →
      res = .next (faulted u (u.pc + 2))))

/-- The end of a step that did not fault (60_exceptions.md R200 part 5, R201): the delayed enable, the
operation count, the returned cycles and the `advance` that gets them. -/
def finished (arm : Bool) (cycles : Nat) (t : State) : State :=
  ({ t with ime := arm || t.ime, imePending := !arm && t.imePending, opCount := t.opCount + 1,
            out := { t.out with cycles := some cycles } } : State).advance cycles

/-- The result of a step is that of executing `i` in `u` and finishing (60_exceptions.md R200): `arm` is
the sampled pending enable, which DI cancels, and `spent` the cycles of a dispatch. -/
def CompletesAs (arm : Bool) (spent : Nat) (u : State) (i : Instr) (res : Result) : Prop :=
  ∀ t, exec i u = .next t →
    (t.fault ≠ none → res = .next t) ∧
    (t.fault = none →
      res = .next (finished (arm && decide (i ≠ .di)) (spent + u.launch.cost i (taken i u)) t))

/-! ### Shapes of the video controller's rules -/

/-- A read of LCDC answers a byte with bit 7 set (60_exceptions.md R226). -/
def DisplayOn (s : State) : Prop := ∃ v, s.busRead 0xFF40 = some v ∧ v.getLsbD 7 = true

/-- With the display on, `advance(n)` from the video state `p` ends in `q` and renders `lines`. -/
def Advances (n : Nat) (p q : Ppu) (lines : List Nat) : Prop :=
  ∀ s : State, DisplayOn s → s.ppu = p →
    s.advance n = { s with ppu := q, out := { s.out with rendered := s.out.rendered ++ lines } }

/-! ### The unassigned bytes and group S -/

/-- The thirteen unrecognized bytes (30_encoding.md R71). -/
def unassigned : List Byte :=
  [0xD3, 0xDB, 0xDD, 0xE3, 0xE4, 0xEB, 0xEC, 0xED, 0xF4, 0xFC, 0xFD, 0x10, 0x76]

/-- The ILLEGAL row of each of them. -/
def illegalRows : List (Instr × Byte) :=
  [(.illegalD3, 0xD3), (.illegalDB, 0xDB), (.illegalDD, 0xDD), (.illegalE3, 0xE3),
   (.illegalE4, 0xE4), (.illegalEB, 0xEB), (.illegalEC, 0xEC), (.illegalED, 0xED),
   (.illegalF4, 0xF4), (.illegalFC, 0xFC), (.illegalFD, 0xFD), (.illegal10, 0x10),
   (.illegal76, 0x76)]

/-- The unprefixed opcode bytes of group S, from the hex column of 30_encoding.md R70. -/
def groupS : List Byte :=
  [0x00, 0x04, 0x0C, 0x14, 0x1C, 0x24, 0x2C, 0x34, 0x3C, 0x05, 0x0D, 0x15, 0x1D, 0x25, 0x2D, 0x35,
   0x3D, 0xA8, 0xA9, 0xAA, 0xAB, 0xAC, 0xAD, 0xAE, 0xAF, 0xB8, 0xB9, 0xBA, 0xBB, 0xBC, 0xBD, 0xBE,
   0xBF, 0xC1, 0xD1, 0xE1, 0xF1, 0xC3, 0xC5, 0xD5, 0xE5, 0xF5, 0xEE, 0xFE, 0xC9, 0xCD, 0xF3, 0xFB]

/-- A packed decimal number of two digits. -/
def bcd (n : Nat) : Byte := byteOf (16 * (n / 10) + n % 10)

/-- An accumulator operation in its `r8` and its `n8` form (43_ext_alu8.md, template): the operand is
read, `rule` of the state and the operand gives the state but for `pc`, which advances. -/
def AccumulatorRule (op : R8 → Instr) (opN : Byte → Instr) (code codeN : Nat) (g : Group)
    (rule : State → Byte → State) : Prop :=
  (∀ r : R8, Coded (op r) [byteOf (code + r8Code r)] g (if r = .mhl then 8 else 4)
    (if r = .mhl then 8 else 4)) ∧
  (∀ n : Byte, Coded (opN n) [byteOf codeN, n] g 8 8) ∧
  (∀ (r : R8) (s : State), UsesOperand (op r) s r fun v => { rule s v with pc := s.pc + 1 }) ∧
  (∀ (n : Byte) (s : State), exec (opN n) s = .next { rule s n with pc := s.pc + 2 })

/-- A prefixed rotate or shift (45_ext_rotate_shift_bit.md, template): `res` gives the result from the
operand and the old carry, `carry` the bit that goes to C; Z is the zero test of the result, N and H
are 0, the write back is last. -/
def ShiftRule (op : R8 → Instr) (code : Nat) (res : Byte → Bool → Nat) (carry : Byte → Bool) : Prop :=
  (∀ r : R8, Coded (op r) [0xCB, byteOf (code + r8Code r)] .x (if r = .mhl then 16 else 8)
    (if r = .mhl then 16 else 8)) ∧
  ∀ (r : R8) (s : State),
    let flags := fun v : Byte =>
      flagByte (decide (res v (fc s) % 256 = 0)) false false (carry v)
    ModifiesOperand (op r) s r (fun v => byteOf (res v (fc s)))
      (fun v => { s with f := flags v })
      (fun v u => { u with f := flags v, pc := s.pc + 2 })

/-- A one-byte accumulator rotate (45_ext_rotate_shift_bit.md R150 to R153): Z is 0 whatever the
result. -/
def RotateRule (i : Instr) (code : Nat) (res : Byte → Bool → Nat) (carry : Byte → Bool) : Prop :=
  Coded i [byteOf code] .x 4 4 ∧
  ∀ s : State, exec i s = .next { s with a := byteOf (res s.a (fc s)),
                                         f := flagByte false false false (carry s.a),
                                         pc := s.pc + 1 }

end Sys2Proof.Spec

open Sys2Proof Sys2Proof.Machine Sys2Proof.Spec

/-! ### Reset and the invariant -/

/-- 10_state.md R24: every field after construction and `reset()`, for every choice of the launch
parameters; with stores of zeros the display is off and nothing is requested. -/
def Obligations.ResetValues : Prop :=
  ∀ p : Launch,
    let s := State.ofLaunch p
    (s.a = 0x01 ∧ s.f = 0xB0 ∧ s.b = 0x00 ∧ s.c = 0x13 ∧ s.d = 0x00 ∧ s.e = 0xD8 ∧ s.h = 0x01 ∧
      s.l = 0x4D ∧ s.sp = 0xFFFE ∧ s.pc = (if p.bootPresent then 0x0000 else 0x0100)) ∧
    (s.ime = false ∧ s.imePending = false ∧ s.bootMapped = p.bootPresent ∧
      s.ppu = ⟨.hblank, 0, 0⟩ ∧ s.mem = p.initMem ∧ s.fault = none ∧ s.opCount = 0) ∧
    (p.initMem = .zero → s.pending = none ∧
      ∀ a : Word, writable a = true → s.busRead a = some 0x00)

/-- The invariant of the model holds after reset: at the default launch (log 2) and at every launch
that 00_scope.md R7 admits. -/
def Obligations.ResetSatisfiesInvariant : Prop :=
  State.reset.Inv ∧ ∀ p : Launch, p.wf = true → (State.ofLaunch p).Inv

/-- 10_state.md R12, R20, R21: from every state that meets the invariant, a step gives one that does:
the low nibble of `f` is zero, the stores stay canonical, the video state stays legal, the launch is
one the spec admits, and the boot ROM is mapped only if there is one. -/
def Obligations.StepKeepsInvariant : Prop :=
  ∀ s t : State, s.Inv → step s = .next t → t.Inv

/-! ### Encoding -/

/-- Decode and encode agree for every well-formed instruction, whatever follows it in memory. -/
def Obligations.DecodeEncodeRoundTrip : Prop :=
  ∀ (i : Instr) (rest : List Byte), i.wellFormed = true → decode (encode i ++ rest) = .ok (i, rest)

/-- What the decoder reads is well formed and is exactly the bytes its encoding has: no bit of a word is
dropped and no two words give one instruction. -/
def Obligations.DecodedBytesAreTheEncoding : Prop :=
  ∀ (bs rest : List Byte) (i : Instr), decode bs = .ok (i, rest) →
    i.wellFormed = true ∧ encode i ++ rest = bs

/-- 30_encoding.md R76, R73: exactly one row matches every byte other than the prefix, none is the
prefix's own, exactly one row of the prefixed page matches every byte, and there are 93 rows. -/
def Obligations.OneRowPerOpcodeByte : Prop :=
  (mainRows ++ cbRows).length = 93 ∧
  (∀ b : Byte, (mainRows.filter (·.matchesByte b)).length = if b = 0xCB then 0 else 1) ∧
  (∀ b : Byte, (cbRows.filter (·.matchesByte b)).length = 1)

/-- Words written out from 30_encoding.md R67, R68, R70, R72 decode to the instruction they stand for: a
line for each of the table's rule files (40_source_named.md to 46_ext_control.md), then one of the
unassigned bytes (R71). -/
def Obligations.SpecWordsDecode : Prop :=
  (decode [0x00] = .ok (.nop, []) ∧ decode [0xF5] = .ok (.pushRr .af, []) ∧
    decode [0xCD, 0x10, 0xC0] = .ok (.callN16 0xC010, []) ∧ decode [0x35] = .ok (.decR8 .mhl, []) ∧
    decode [0xFE, 0x90] = .ok (.cpAN8 0x90, []) ∧ decode [0xCB, 0x7C] = .ok (.bitBR8 7 .h, [])) ∧
  (decode [0x3E, 0xA5] = .ok (.ldRN8 .a 0xA5, []) ∧ decode [0x72] = .ok (.ldHlR .d, [])) ∧
  (decode [0x31, 0xFE, 0xFF] = .ok (.ldRrN16 .sp 0xFFFE, []) ∧
    decode [0xF8, 0x7F] = .ok (.ldHlSpE8 0x7F, [])) ∧
  (decode [0x96] = .ok (.subAR8 .mhl, []) ∧ decode [0xCE, 0x01] = .ok (.adcAN8 0x01, []) ∧
    decode [0x27] = .ok (.daa, [])) ∧
  (decode [0x19] = .ok (.addHlRr .de, []) ∧ decode [0x3B] = .ok (.decRr .sp, []) ∧
    decode [0xE8, 0xFB] = .ok (.addSpE8 0xFB, [])) ∧
  (decode [0x17] = .ok (.rla, []) ∧ decode [0xCB, 0x3D] = .ok (.srlR8 .l, []) ∧
    decode [0xCB, 0xDF] = .ok (.setBR8 3 .a, [])) ∧
  (decode [0x38, 0xFB] = .ok (.jrCcE8 .c 0xFB, []) ∧ decode [0xEF] = .ok (.rstT 5, [])) ∧
  decode [0x76] = .ok (.illegal76, [])

/-! ### The step -/

/-- 60_exceptions.md R200, R201: where no interrupt is pending and the bytes at `pc` are those of an
instruction of the dispatch table, the step is its execution, the delayed enable, the count, the cost
and the `advance`. -/
def Obligations.StepRunsDecodedInstruction : Prop :=
  ∀ (s : State) (i : Instr), CpuTurn s → s.pending = none → i.wellFormed = true →
    i.key.recognized s.launch.dispatchExt = true → HoldsAt s s.pc i →
    CompletesAs s.imePending 0 (begun s) i (step s)

/-- 60_exceptions.md R214, R200, R202, R206, R207: a pending interrupt pushes `pc`, acknowledges where
`ACK_CLEARS_IF`, goes to the vector with `ime` and the pending enable cleared, costs 20 cycles, and the
handler's first instruction runs in the same step with no delayed enable; an unrecognized opcode there,
and a byte of that instruction that the bus does not answer, leave the dispatch in place and record the
vector. (The output port and the host's plan are the model's, logs 6 and 7.) -/
def Obligations.StepTakesPendingInterrupt : Prop :=
  ∀ (s : State) (bit : Nat) (vector : Word), CpuTurn s → s.pending = some (bit, vector) →
    AfterPush (begun s) s.pc (step s) fun u =>
      ∃ w, (if s.launch.ackClearsIf then
          ∃ fl, u.busRead 0xFF0F = some fl ∧
            u.busWrite 0xFF0F (fl &&& (0xFF ^^^ byteOf (2 ^ bit))) = some w
        else w = u) ∧
        let entry : State := { w with pc := vector, ime := false, imePending := false }
        (∀ i : Instr, i.wellFormed = true → i.key.recognized s.launch.dispatchExt = true →
          HoldsAt entry vector i → CompletesAs false 20 entry i (step s)) ∧
        (∀ k : Key, k.recognized s.launch.dispatchExt = false → KeyAt entry vector k →
          step s = .next { entry with fault := some ⟨.unknownOpcode k, vector⟩ }) ∧
        FetchRaises entry (step s)

/-- 60_exceptions.md R214: `service` pushes `pc` and nothing else, acknowledges where `ACK_CLEARS_IF`, then
goes to the vector with `ime` and the pending enable cleared; either push can raise. What follows it,
`k`, starts from that state. -/
def Obligations.TakingAnInterrupt : Prop :=
  ∀ (s : State) (bit : Nat) (vector : Word) (k : State → Result),
    AfterPush s s.pc (serviceThen bit vector s k) fun u =>
      ∃ w, (if s.launch.ackClearsIf then
          ∃ fl, u.busRead 0xFF0F = some fl ∧
            u.busWrite 0xFF0F (fl &&& (0xFF ^^^ byteOf (2 ^ bit))) = some w
        else w = u) ∧
        serviceThen bit vector s k = k { w with pc := vector, ime := false, imePending := false }

/-- 30_encoding.md R71, R73: which keys are unrecognized, for both values of `DISPATCH_EXT`; the ILLEGAL
rows raise; and a step on an unrecognized key changes nothing but the latch, whatever follows the key.
(That the last step's outputs are gone is the model's choice, log 7.) -/
def Obligations.UnrecognizedOpcodeIsFatal : Prop :=
  (∀ op : Byte, op ≠ 0xCB →
    ((⟨false, op⟩ : Key).recognized true = false ↔ op ∈ unassigned) ∧
    ((⟨false, op⟩ : Key).recognized false = true ↔ op ∈ groupS)) ∧
  (∀ op : Byte, (⟨true, op⟩ : Key).recognized true = true ∧
    ((⟨true, op⟩ : Key).recognized false = true ↔ 0x40 ≤ op.toNat ∧ op.toNat ≤ 0x7F)) ∧
  (∀ row ∈ illegalRows, encode row.1 = [row.2] ∧ decode [row.2] = .ok (row.1, []) ∧
    ∀ s : State, exec row.1 s =
      .next { s with fault := some ⟨.unknownOpcode ⟨false, row.2⟩, s.pc⟩ }) ∧
  (∀ (s : State) (k : Key), CpuTurn s → s.pending = none → KeyAt s s.pc k →
    k.recognized s.launch.dispatchExt = false →
    step s = .next { begun s with fault := some ⟨.unknownOpcode k, s.pc⟩ })

/-- 60_exceptions.md R204: once the fault is latched there is no step; so a state that has a step is not
latched, and no run clears the latch. -/
def Obligations.LatchedFaultHasNoStep : Prop :=
  (∀ (s : State) (r : FaultRecord), s.fault = some r → step s = .fault (.latched r)) ∧
  (∀ s t : State, step s = .next t → s.fault = none)

/-- 60_exceptions.md R203, R204, R206: an instruction that raises leaves `pc` on its first byte and
records it, records an address that could not be read or written or its own unassigned key, and leaves
the interrupt state, the video state and the operation count as they were. -/
def Obligations.ExecuteFaultIsPrecise : Prop :=
  ∀ (i : Instr) (s t : State) (r : FaultRecord), s.fault = none → exec i s = .next t →
    t.fault = some r →
    t.pc = s.pc ∧ r.pc = s.pc ∧ t.ime = s.ime ∧ t.imePending = s.imePending ∧ t.ppu = s.ppu ∧
    t.opCount = s.opCount ∧
    ((∃ a, r.kind = .unmappedAddress a ∧ (s.readable a = false ∨ writable a = false)) ∨
      (∃ op, (i, op) ∈ illegalRows ∧ r.kind = .unknownOpcode ⟨false, op⟩))

/-- 60_exceptions.md R202, R206, R207: with no interrupt pending, the fetch of the key's one or two bytes
and of each operand byte raises where the bus does not answer, the first failing byte in that order,
with nothing else changed; an unrecognized key is found before an operand byte is read
(`UnrecognizedOpcodeIsFatal`). The fetch after a dispatch is in `StepTakesPendingInterrupt`. (That the
last step's outputs are gone is the model's choice, log 7.) -/
def Obligations.FetchFaultIsLatched : Prop :=
  ∀ s : State, CpuTurn s → s.pending = none → FetchRaises (begun s) (step s)

/-- 10_state.md R22, 60_exceptions.md R200, R201, 70_reset_and_hazards.md R251: a step that completes
counts one operation and, with the default `COST`, returns 4 to 44 cycles; one that faults counts none,
returns none and does not advance the video controller. -/
def Obligations.CyclesAndOperationCount : Prop :=
  ∀ s t : State, CpuTurn s → step s = .next t →
    (t.fault = none → t.opCount = s.opCount + 1 ∧
      ∃ n, t.out.cycles = some n ∧ (s.launch.costs = [] → 4 ≤ n ∧ n ≤ 44)) ∧
    (t.fault ≠ none → t.opCount = s.opCount ∧ t.out.cycles = none ∧ t.ppu = s.ppu ∧
      t.out.rendered = [])

/-- 60_exceptions.md R215, R216, 40_source_named.md R80, R81: EI and DI with their encodings, and the whole
master-enable state machine: EI enables at the end of the next step and not before, DI and a dispatch
cancel, RETI enables at once, nothing else changes `ime` or the pending enable. -/
def Obligations.MasterEnableStateMachine : Prop :=
  Coded .ei [0xFB] .s 4 4 ∧ Coded .di [0xF3] .s 4 4 ∧
  (∀ s : State, exec .ei s = .next { s with imePending := true, pc := s.pc + 1 }) ∧
  (∀ s : State, exec .di s = .next { s with ime := false, imePending := false, pc := s.pc + 1 }) ∧
  (∀ p : Launch, (State.ofLaunch p).ime = false ∧ (State.ofLaunch p).imePending = false) ∧
  (∀ (s : State) (b : Bool), s.setMasterEnable b = { s with ime := b, imePending := false }) ∧
  (∀ (s t : State) (i : Instr), CpuTurn s → s.pending = none → i.wellFormed = true →
    HoldsAt s s.pc i → step s = .next t → t.fault = none →
    (i = .di → t.ime = false ∧ t.imePending = false) ∧
    (i ≠ .di → s.imePending = true → t.ime = true ∧ t.imePending = false) ∧
    (i = .reti → t.ime = true ∧ t.imePending = false) ∧
    (i = .ei → s.imePending = false → t.ime = s.ime ∧ t.imePending = true) ∧
    (i ≠ .ei → i ≠ .di → i ≠ .reti → s.imePending = false → t.ime = s.ime ∧ t.imePending = false)) ∧
  (∀ (s t : State) (bit : Nat) (vector : Word), CpuTurn s → s.pending = some (bit, vector) →
    step s = .next t → t.fault = none →
    ∃ (u : State) (i : Instr), HoldsAt u vector i ∧ i.wellFormed = true ∧
      u = { begun s with
        sp := s.sp - 2, pc := vector, ime := false, imePending := false,
        out := u.out,
        mem := s.applyWrites s.mem
          (t.out.writes.take (if s.launch.ackClearsIf then 3 else 2)) } ∧
      t.ime = decide (i = .reti) ∧ t.imePending = decide (i = .ei))

/-- 60_exceptions.md R210, R211, R212: an interrupt is pending exactly when `ime` is set and a bit 0 to 4
is set in both IE and IF as the bus answers them; the lowest such bit is returned with the vector
0x0040 + 8 * bit. -/
def Obligations.PendingIsLowestEnabledRequest : Prop :=
  ∀ s : State, ∃ ie fl : Byte, s.busRead 0xFFFF = some ie ∧ s.busRead 0xFF0F = some fl ∧
    let live := fun j : Nat => j < 5 ∧ ie.getLsbD j = true ∧ fl.getLsbD j = true
    (∀ (bit : Nat) (vector : Word), s.pending = some (bit, vector) ↔
      s.ime = true ∧ live bit ∧ (∀ j, j < bit → ¬ live j) ∧
        vector = BitVec.ofNat 16 (0x0040 + 8 * bit)) ∧
    (s.pending = none ↔ s.ime = false ∨ ∀ j, ¬ live j)

/-- 20_memory.md R39: `disable_boot()` clears `boot_mapped` and nothing else, between two steps; after
it 0x0000 to 0x00FF read the cartridge, subject to its length; no step of the Cpu and no bus write
changes the mapping. (The host's plan and the output port are the model's, logs 6 and 7.) -/
def Obligations.BootRomUnmappedOnlyByHost : Prop :=
  (∀ (s : State) (plan : List HostMove), s.fault = none → s.hostPlan = .disableBoot :: plan →
    step s = .next { begun s with bootMapped := false }) ∧
  (∀ (s : State) (a : Word), s.bootMapped = false → a.toNat ≤ 0xFF →
    s.busRead a = if a.toNat < s.launch.cartLen then some (s.launch.cart.read a.toNat) else none) ∧
  (∀ s t : State, step s = .next t → (∀ plan, s.hostPlan ≠ .disableBoot :: plan) →
    t.bootMapped = s.bootMapped) ∧
  (∀ (s t : State) (a : Word) (v : Byte), s.busWrite a v = some t → t.bootMapped = s.bootMapped)

/-- 60_exceptions.md R235, 10_state.md R19: the host's write of the input cell changes the byte at 0xFF00
and no other, and only where `HOST_WRITES`; elsewhere the model refuses the move (log 6). -/
def Obligations.HostWritesOnlyInputCell : Prop :=
  ∀ (s : State) (v : Byte) (plan : List HostMove), s.fault = none →
    s.hostPlan = .writeInput v :: plan →
    (s.launch.hostWrites = false → step s = .refused .hostWriteForbidden) ∧
    (s.launch.hostWrites = true → ∃ t, step s = .next t ∧ t = { begun s with mem := t.mem } ∧
      t.busRead 0xFF00 = some v ∧ ∀ a : Word, a ≠ 0xFF00 → t.busRead a = s.busRead a)

/-- 10_state.md R25: no step changes a launch parameter, so below 0x8000 every read answers as before
while the boot mapping is the same. -/
def Obligations.LaunchAndRomNeverChange : Prop :=
  ∀ s t : State, step s = .next t → t.launch = s.launch ∧
    (t.bootMapped = s.bootMapped → ∀ a : Word, a.toNat < 0x8000 → t.busRead a = s.busRead a)

/-- 20_memory.md R47, R48: the stores after a step of the Cpu are those before it with the step's
recorded writes made in order, so the points an observer can take run from the one to the other. (The
record is the model's own, log 8.) -/
def Obligations.MemoryIsItsWrites : Prop :=
  ∀ s t : State, CpuTurn s → step s = .next t →
    t.mem = s.applyWrites s.mem t.out.writes ∧
    (s.observerPoints t).head? = some s.mem ∧ (s.observerPoints t).getLast? = some t.mem

/-- The output port is the model's own (log 7): no step depends on what stands in it. -/
def Obligations.OutputPortIsNotRead : Prop :=
  ∀ (s : State) (o : StepOut), step { s with out := o } = step s

/-- Every instruction answers a next state in every state, and a state that is not latched has a step
unless the host's plan writes the input cell without `HOST_WRITES` (log 6). -/
def Obligations.StepIsTotal : Prop :=
  (∀ (i : Instr) (s : State), ∃ t, exec i s = .next t) ∧
  (∀ s : State, s.fault = none →
    (∃ t, step s = .next t) ∨
    (∃ v plan, s.hostPlan = .writeInput v :: plan ∧ s.launch.hostWrites = false))

/-! ### The bus -/

/-- 20_memory.md R36, R41: `MemWrite` raises exactly at an address that is not writable; else it changes
the one cell of the address, whatever alias it is read through, and nothing else of the machine. -/
def Obligations.WriteStoresExactlyOneByte : Prop :=
  ∀ (s : State) (a : Word) (v : Byte) (k : State → Result),
    (writable a = false → s.busWrite a v = none ∧ writeThen s a v k = .next (faulted s a)) ∧
    (writable a = true → ∃ t, s.busWrite a v = some t ∧ writeThen s a v k = k t ∧
      t = { s with mem := t.mem, out := t.out } ∧
      ∀ x : Word, t.busRead x = if s.route x = s.route a then some v else s.busRead x)

/-- 20_memory.md R33: two addresses name one cell exactly when they are equal or are a work-RAM address
0xC000 to 0xDDFF and its echo 0x2000 above; a write through either is seen through the other. -/
def Obligations.EchoIsTheOnlyAlias : Prop :=
  (∀ (s : State) (a b : Word), s.route a ≠ .unmapped →
    (s.route a = s.route b ↔
      a = b ∨ (0xC000 ≤ a.toNat ∧ a.toNat ≤ 0xDDFF ∧ b = a + 0x2000) ∨
      (0xC000 ≤ b.toNat ∧ b.toNat ≤ 0xDDFF ∧ a = b + 0x2000))) ∧
  (∀ (s t : State) (a : Word) (v : Byte), 0xC000 ≤ a.toNat → a.toNat ≤ 0xDDFF →
    (s.busWrite a v = some t → t.busRead (a + 0x2000) = some v) ∧
    (s.busWrite (a + 0x2000) v = some t → t.busRead a = some v))

/-- 20_memory.md R37, R38: which reads and writes are fatal. A read of 0xFE00 to 0xFEFF, a read of the
cartridge at or beyond its length; a write below 0x8000 (R36) or in 0xFE00 to 0xFEFF; no other. Such a
read or write raises `UnmappedAddress` with the address. -/
def Obligations.FatalAccesses : Prop :=
  ∀ (s : State) (a : Word) (v : Byte),
    (∀ k : Byte → Result, s.busRead a = none → readThen s a k = .next (faulted s a)) ∧
    (∀ k : State → Result, s.busWrite a v = none → writeThen s a v k = .next (faulted s a)) ∧
    (s.busRead a = none ↔ (0xFE00 ≤ a.toNat ∧ a.toNat ≤ 0xFEFF) ∨
      (a.toNat ≤ 0x7FFF ∧ ¬ (a.toNat ≤ 0xFF ∧ s.bootMapped = true) ∧ s.launch.cartLen ≤ a.toNat)) ∧
    (s.busWrite a v = none ↔ a.toNat ≤ 0x7FFF ∨ (0xFE00 ≤ a.toNat ∧ a.toNat ≤ 0xFEFF))

/-- 20_memory.md R31: what a read answers in each row of the region table, and in the range of no row. -/
def Obligations.RegionTable : Prop :=
  ∀ (s : State) (a : Word),
    let n := a.toNat
    (n ≤ 0x00FF → s.bootMapped = true → s.busRead a = some (s.launch.bootRom.read n)) ∧
    (n ≤ 0x7FFF → (s.bootMapped = false ∨ 0x0100 ≤ n) → n < s.launch.cartLen →
      s.busRead a = some (s.launch.cart.read n)) ∧
    (0x8000 ≤ n → n ≤ 0x9FFF → s.busRead a = some (s.mem.vram.read (n - 0x8000))) ∧
    (0xA000 ≤ n → n ≤ 0xBFFF → s.busRead a = some (s.mem.eram.read (n - 0xA000))) ∧
    (0xC000 ≤ n → n ≤ 0xDFFF → s.busRead a = some (s.mem.wram.read (n - 0xC000))) ∧
    (0xE000 ≤ n → n ≤ 0xFDFF → s.busRead a = some (s.mem.wram.read (n - 0xE000))) ∧
    (n = 0xFF00 → s.busRead a = some s.mem.input) ∧
    (0xFF01 ≤ n → n ≤ 0xFF7F → s.busRead a = some (s.mem.io.read (n - 0xFF01))) ∧
    (0xFF80 ≤ n → n ≤ 0xFFFE → s.busRead a = some (s.mem.hram.read (n - 0xFF80))) ∧
    (n = 0xFFFF → s.busRead a = some s.mem.ie) ∧
    (0xFE00 ≤ n → n ≤ 0xFEFF → s.busRead a = none)

/-- 20_memory.md R40: `read_range` answers the bytes of the range in ascending order when they are all
in one store, and raises for the first address that is unmapped. -/
def Obligations.ReadRange : Prop :=
  ∀ (s : State) (start stop : Word), start ≤ stop →
    ((∀ a : Word, start ≤ a → a ≤ stop → s.readable a = true ∧
        (s.route a).store = (s.route start).store) →
      ∃ bs, s.readRange start stop = .ok bs ∧ bs.length = stop.toNat - start.toNat + 1 ∧
        ∀ k, k < bs.length → bs[k]? = s.busRead (start + BitVec.ofNat 16 k)) ∧
    (∀ x : Word, start ≤ x → x ≤ stop → s.readable x = false →
      (∀ a : Word, start ≤ a → a < x → s.readable a = true ∧
        (s.route a).store = (s.route start).store) →
      s.readRange start stop = .error x)

/-- 60_exceptions.md R205, 10_state.md R23: what the dump shows; an unmapped byte is absent. -/
def Obligations.DumpShowsFaultedState : Prop :=
  ∀ s : State, s.dump.opCount = s.opCount ∧
    s.dump.registers = ⟨s.a, s.f, s.b, s.c, s.d, s.e, s.h, s.l, s.pc, s.sp, ⟨fz s, fn s, fh s, fc s⟩⟩ ∧
    s.dump.code = [s.busRead s.pc, s.busRead (s.pc + 1), s.busRead (s.pc + 2), s.busRead (s.pc + 3)] ∧
    s.dump.stack.length = s.launch.dumpDepth ∧
    (∀ k, k < s.launch.dumpDepth → s.dump.stack[k]? = some (s.busRead (s.sp + BitVec.ofNat 16 k))) ∧
    s.dump.video.length = s.launch.dumpDepth ∧
    (∀ k, k < s.launch.dumpDepth → s.launch.dumpVramOffset + k < 0x2000 →
      s.dump.video[k]? = some (s.busRead (BitVec.ofNat 16 (0x8000 + s.launch.dumpVramOffset + k))))

/-! ### The video controller -/

/-- 60_exceptions.md R227: one cycle of the counter in each phase, with the RenderLine event. -/
def Obligations.VideoTick : Prop :=
  ∀ line clock : Nat,
    Advances 1 ⟨.oamScan, line, clock⟩
      (if clock + 1 = 80 then ⟨.pixelTransfer, line, 80⟩ else ⟨.oamScan, line, clock + 1⟩) [] ∧
    Advances 1 ⟨.pixelTransfer, line, clock⟩
      (if clock + 1 = 252 then ⟨.hblank, line, 252⟩ else ⟨.pixelTransfer, line, clock + 1⟩)
      (if clock + 1 = 252 then [line] else []) ∧
    Advances 1 ⟨.hblank, line, clock⟩
      (if clock + 1 = 456 then
        (if line + 1 = 144 then ⟨.vblank, 144, 0⟩ else ⟨.oamScan, line + 1, 0⟩)
       else ⟨.hblank, line, clock + 1⟩) [] ∧
    Advances 1 ⟨.vblank, line, clock⟩
      (if clock + 1 = 456 then
        (if line = 153 then ⟨.oamScan, 0, 0⟩ else ⟨.vblank, line + 1, 0⟩)
       else ⟨.vblank, line, clock + 1⟩) []

/-- 60_exceptions.md R226, R228: with the display off `advance` changes nothing; with it on two calls are
one of the sum; and the source's example. -/
def Obligations.AdvanceComposes : Prop :=
  (∀ (s : State) (n : Nat), ¬ DisplayOn s → s.advance n = s) ∧
  (∀ (s : State) (m n : Nat), DisplayOn s →
    DisplayOn (s.advance m) ∧ (s.advance m).advance n = s.advance (m + n)) ∧
  Advances 80 ⟨.oamScan, 0, 0⟩ ⟨.pixelTransfer, 0, 80⟩ [] ∧
  Advances 456 ⟨.oamScan, 0, 0⟩ ⟨.oamScan, 1, 0⟩ [0]

/-- 60_exceptions.md R230: where a visible line and a Vblank line stand at each cycle, the 4560 cycles of
Vblank, the 70224 cycles of a frame with its 144 rendered lines in order, and the first line after
reset. -/
def Obligations.ScanlineTiming : Prop :=
  (∀ line n : Nat, line < 144 → n < 456 → Advances n ⟨.oamScan, line, 0⟩
    ⟨if n < 80 then .oamScan else if n < 252 then .pixelTransfer else .hblank, line, n⟩
    (if n < 252 then [] else [line])) ∧
  (∀ line : Nat, line < 144 → Advances 456 ⟨.oamScan, line, 0⟩
    ⟨if line = 143 then .vblank else .oamScan, line + 1, 0⟩ [line]) ∧
  (∀ line n : Nat, 144 ≤ line → line ≤ 153 → n < 456 →
    Advances n ⟨.vblank, line, 0⟩ ⟨.vblank, line, n⟩ []) ∧
  Advances 4560 ⟨.vblank, 144, 0⟩ ⟨.oamScan, 0, 0⟩ [] ∧
  Advances 70224 ⟨.oamScan, 0, 0⟩ ⟨.oamScan, 0, 0⟩ (List.range 144) ∧
  Advances 456 ⟨.hblank, 0, 0⟩ ⟨.oamScan, 1, 0⟩ []

/-! ### Operands, NOP and the loads -/

/-- 30_encoding.md R63, R64, R65, 00_scope.md R8: what each operand code names, how an `r8` operand is
read and written, and what a condition tests. -/
def Obligations.OperandCodes : Prop :=
  ∀ s : State,
    ([0, 1, 2, 3, 4, 5, 6, 7].map fun k : Nat => s.r8 (R8.ofCode (BitVec.ofNat 3 k))) =
      [some s.b, some s.c, some s.d, some s.e, some s.h, some s.l, s.busRead (s.h ++ s.l),
       some s.a] ∧
    (∀ (r : R8) (k : Byte → Result), readR8Then r s k =
      if r = .mhl then readThen s (s.h ++ s.l) k else k ((s.r8 r).getD 0)) ∧
    (∀ (r : R8) (v : Byte) (k : State → Result), writeR8Then r v s k =
      if r = .mhl then writeThen s (s.h ++ s.l) v k else k (putReg s r v)) ∧
    ([0, 1, 2, 3].map fun k : Nat => s.pairSp (PairSp.ofCode (BitVec.ofNat 2 k))) =
      [s.b ++ s.c, s.d ++ s.e, s.h ++ s.l, s.sp] ∧
    ([0, 1, 2, 3].map fun k : Nat => s.pairAf (PairAf.ofCode (BitVec.ofNat 2 k))) =
      [s.b ++ s.c, s.d ++ s.e, s.h ++ s.l, s.a ++ s.f] ∧
    (∀ cc : Cond, s.cond cc = condHolds s cc) ∧
    ([0, 1, 2, 3].map fun k : Nat => Cond.ofCode (BitVec.ofNat 2 k)) = [.nz, .z, .nc, .c]

/-- 40_source_named.md R91: NOP is the byte 0x00, costs 4 and changes nothing but `pc`. -/
def Obligations.NopChangesOnlyPc : Prop :=
  Coded .nop [0x00] .s 4 4 ∧ ∀ s : State, exec .nop s = .next { s with pc := s.pc + 1 }

/-- 41_ext_load8.md R100, R101: register to register and immediate to register. -/
def Obligations.RegisterLoads : Prop :=
  (∀ dst src : R8, dst ≠ .mhl → src ≠ .mhl →
    Coded (.ldRR dst src) [byteOf (0x40 + 8 * r8Code dst + r8Code src)] .x 4 4 ∧
    ∀ s : State, ∃ v, s.r8 src = some v ∧
      exec (.ldRR dst src) s = .next { putReg s dst v with pc := s.pc + 1 }) ∧
  (∀ (dst : R8) (n : Byte), dst ≠ .mhl →
    Coded (.ldRN8 dst n) [byteOf (0x06 + 8 * r8Code dst), n] .x 8 8 ∧
    ∀ s : State, exec (.ldRN8 dst n) s = .next { putReg s dst n with pc := s.pc + 2 })

/-- 41_ext_load8.md R102, R108, R109, R111, R113, R114, R117, R118: the loads from memory; the read may
raise, but in the high page it never does. -/
def Obligations.LoadsFromMemory : Prop :=
  (∀ dst : R8, dst ≠ .mhl →
    Coded (.ldRHl dst) [byteOf (0x46 + 8 * r8Code dst)] .x 8 8 ∧
    ∀ s : State, ReadsByte (.ldRHl dst) s s.hl fun v => { putReg s dst v with pc := s.pc + 1 }) ∧
  (Coded .ldABc [0x0A] .x 8 8 ∧
    ∀ s : State, ReadsByte .ldABc s s.bc fun v => { s with a := v, pc := s.pc + 1 }) ∧
  (Coded .ldADe [0x1A] .x 8 8 ∧
    ∀ s : State, ReadsByte .ldADe s s.de fun v => { s with a := v, pc := s.pc + 1 }) ∧
  (∀ n : Word, Coded (.ldAN16 n) [0xFA, lo8 n, hi8 n] .x 16 16 ∧
    ∀ s : State, ReadsByte (.ldAN16 n) s n fun v => { s with a := v, pc := s.pc + 3 }) ∧
  (Coded .ldhAC [0xF2] .x 8 8 ∧ ∀ s : State, ∃ v,
    s.busRead (BitVec.ofNat 16 (0xFF00 + s.c.toNat)) = some v ∧
    exec .ldhAC s = .next { s with a := v, pc := s.pc + 1 }) ∧
  (∀ n : Byte, Coded (.ldhAN8 n) [0xF0, n] .x 12 12 ∧ ∀ s : State, ∃ v,
    s.busRead (BitVec.ofNat 16 (0xFF00 + n.toNat)) = some v ∧
    exec (.ldhAN8 n) s = .next { s with a := v, pc := s.pc + 2 }) ∧
  (Coded .ldAHli [0x2A] .x 8 8 ∧ ∀ s : State, ReadsByte .ldAHli s s.hl fun v =>
    { s with a := v, h := hi8 (s.hl + 1), l := lo8 (s.hl + 1), pc := s.pc + 1 }) ∧
  (Coded .ldAHld [0x3A] .x 8 8 ∧ ∀ s : State, ReadsByte .ldAHld s s.hl fun v =>
    { s with a := v, h := hi8 (s.hl - 1), l := lo8 (s.hl - 1), pc := s.pc + 1 })

/-- 41_ext_load8.md R103, R104, R105, R106, R107, R110, R112, R115, R116: the stores; the write may raise,
but in the high page it never does. -/
def Obligations.StoresToMemory : Prop :=
  (∀ src : R8, src ≠ .mhl →
    Coded (.ldHlR src) [byteOf (0x70 + r8Code src)] .x 8 8 ∧
    ∀ s : State, ∃ v, s.r8 src = some v ∧
      StoresByte (.ldHlR src) s s.hl v fun u => { u with pc := s.pc + 1 }) ∧
  (∀ n : Byte, Coded (.ldHlN8 n) [0x36, n] .x 12 12 ∧
    ∀ s : State, StoresByte (.ldHlN8 n) s s.hl n fun u => { u with pc := s.pc + 2 }) ∧
  (∀ n : Word, Coded (.ldN16A n) [0xEA, lo8 n, hi8 n] .x 16 16 ∧
    ∀ s : State, StoresByte (.ldN16A n) s n s.a fun u => { u with pc := s.pc + 3 }) ∧
  (Coded .ldBcA [0x02] .x 8 8 ∧
    ∀ s : State, StoresByte .ldBcA s s.bc s.a fun u => { u with pc := s.pc + 1 }) ∧
  (Coded .ldDeA [0x12] .x 8 8 ∧
    ∀ s : State, StoresByte .ldDeA s s.de s.a fun u => { u with pc := s.pc + 1 }) ∧
  (Coded .ldhCA [0xE2] .x 8 8 ∧ ∀ s : State, ∃ u,
    s.busWrite (BitVec.ofNat 16 (0xFF00 + s.c.toNat)) s.a = some u ∧
    exec .ldhCA s = .next { u with pc := s.pc + 1 }) ∧
  (∀ n : Byte, Coded (.ldhN8A n) [0xE0, n] .x 12 12 ∧ ∀ s : State, ∃ u,
    s.busWrite (BitVec.ofNat 16 (0xFF00 + n.toNat)) s.a = some u ∧
    exec (.ldhN8A n) s = .next { u with pc := s.pc + 2 }) ∧
  (Coded .ldHliA [0x22] .x 8 8 ∧ ∀ s : State, StoresByte .ldHliA s s.hl s.a fun u =>
    { u with h := hi8 (s.hl + 1), l := lo8 (s.hl + 1), pc := s.pc + 1 }) ∧
  (Coded .ldHldA [0x32] .x 8 8 ∧ ∀ s : State, StoresByte .ldHldA s s.hl s.a fun u =>
    { u with h := hi8 (s.hl - 1), l := lo8 (s.hl - 1), pc := s.pc + 1 })

/-- 42_ext_load16.md R120, R121, R122, R123: the 16-bit loads, each with its encoding, its flags and its
raises. -/
def Obligations.SixteenBitLoads : Prop :=
  (∀ (rr : PairSp) (n : Word),
    Coded (.ldRrN16 rr n) [byteOf (0x01 + 16 * spCode rr), lo8 n, hi8 n] .x 12 12) ∧
  (∀ (n : Word) (s : State),
    exec (.ldRrN16 .bc n) s = .next { s with b := hi8 n, c := lo8 n, pc := s.pc + 3 } ∧
    exec (.ldRrN16 .de n) s = .next { s with d := hi8 n, e := lo8 n, pc := s.pc + 3 } ∧
    exec (.ldRrN16 .hl n) s = .next { s with h := hi8 n, l := lo8 n, pc := s.pc + 3 } ∧
    exec (.ldRrN16 .sp n) s = .next { s with sp := n, pc := s.pc + 3 }) ∧
  (∀ n : Word, Coded (.ldN16Sp n) [0x08, lo8 n, hi8 n] .x 20 20 ∧ ∀ s : State,
    (writable n = false → exec (.ldN16Sp n) s = .next (faulted s n)) ∧
    (writable n = true → ∃ u, s.busWrite n (lo8 s.sp) = some u ∧
      (writable (n + 1) = false → exec (.ldN16Sp n) s = .next (faulted u (n + 1))) ∧
      (writable (n + 1) = true → ∃ u', u.busWrite (n + 1) (hi8 s.sp) = some u' ∧
        exec (.ldN16Sp n) s = .next { u' with pc := s.pc + 3 }))) ∧
  (∀ e : Byte, Coded (.ldHlSpE8 e) [0xF8, e] .x 12 12 ∧ ∀ s : State,
    let sum := BitVec.ofInt 16 (s.sp.toNat + e.toInt)
    exec (.ldHlSpE8 e) s = .next { s with
      h := hi8 sum, l := lo8 sum,
      f := flagByte false false (decide (s.sp.toNat % 16 + e.toNat % 16 > 0x0F))
        (decide (s.sp.toNat % 256 + e.toNat > 0xFF)),
      pc := s.pc + 2 }) ∧
  (Coded .ldSpHl [0xF9] .x 8 8 ∧
    ∀ s : State, exec .ldSpHl s = .next { s with sp := s.h ++ s.l, pc := s.pc + 1 })

/-! ### The stack and control transfers -/

/-- 40_source_named.md R86, R87: PUSH and POP of each pair, with every raise of either access; POP AF
masks the low nibble of `f`. -/
def Obligations.PushAndPop : Prop :=
  (∀ rr : PairAf, Coded (.pushRr rr) [byteOf (0xC5 + 16 * afCode rr)] .s 16 16 ∧
    Coded (.popRr rr) [byteOf (0xC1 + 16 * afCode rr)] .s 12 12) ∧
  (∀ (s : State),
    AfterPush s (s.b ++ s.c) (exec (.pushRr .bc) s) (fun u =>
      exec (.pushRr .bc) s = .next { u with pc := s.pc + 1 }) ∧
    AfterPush s (s.d ++ s.e) (exec (.pushRr .de) s) (fun u =>
      exec (.pushRr .de) s = .next { u with pc := s.pc + 1 }) ∧
    AfterPush s (s.h ++ s.l) (exec (.pushRr .hl) s) (fun u =>
      exec (.pushRr .hl) s = .next { u with pc := s.pc + 1 }) ∧
    AfterPush s (s.a ++ s.f) (exec (.pushRr .af) s) (fun u =>
      exec (.pushRr .af) s = .next { u with pc := s.pc + 1 })) ∧
  (∀ (s : State),
    AfterPop s (exec (.popRr .bc) s) (fun w u =>
      exec (.popRr .bc) s = .next { u with b := hi8 w, c := lo8 w, pc := s.pc + 1 }) ∧
    AfterPop s (exec (.popRr .de) s) (fun w u =>
      exec (.popRr .de) s = .next { u with d := hi8 w, e := lo8 w, pc := s.pc + 1 }) ∧
    AfterPop s (exec (.popRr .hl) s) (fun w u =>
      exec (.popRr .hl) s = .next { u with h := hi8 w, l := lo8 w, pc := s.pc + 1 }) ∧
    AfterPop s (exec (.popRr .af) s) (fun w u =>
      exec (.popRr .af) s = .next
        { u with a := hi8 w, f := byteOf ((lo8 w).toNat / 16 * 16), pc := s.pc + 1 }))

/-- 40_source_named.md R87: a POP after a PUSH of the same pair restores both registers and `sp`. -/
def Obligations.PushThenPopRestores : Prop :=
  ∀ (rr : PairAf) (s t : State), s.fault = none → LowNibbleZero s → exec (.pushRr rr) s = .next t →
    t.fault = none → exec (.popRr rr) t = .next { t with sp := s.sp, pc := s.pc + 2 }

/-- 40_source_named.md R88, 46_ext_control.md R174, R177: the calls push the address of the next
instruction and go to the target; a conditional call not taken only advances `pc`. -/
def Obligations.Calls : Prop :=
  (∀ n : Word, Coded (.callN16 n) [0xCD, lo8 n, hi8 n] .s 24 24 ∧
    ∀ s : State, AfterPush s (s.pc + 3) (exec (.callN16 n) s) fun u =>
      exec (.callN16 n) s = .next { u with pc := n }) ∧
  (∀ (cc : Cond) (n : Word),
    Coded (.callCcN16 cc n) [byteOf (0xC4 + 8 * ccCode cc), lo8 n, hi8 n] .x 24 12 ∧
    ∀ s : State, taken (.callCcN16 cc n) s = condHolds s cc ∧
      (condHolds s cc = true → AfterPush s (s.pc + 3) (exec (.callCcN16 cc n) s) fun u =>
        exec (.callCcN16 cc n) s = .next { u with pc := n }) ∧
      (condHolds s cc = false → exec (.callCcN16 cc n) s = .next { s with pc := s.pc + 3 })) ∧
  (∀ t : BitVec 3, Coded (.rstT t) [byteOf (0xC7 + 8 * t.toNat)] .x 16 16 ∧
    ∀ s : State, AfterPush s (s.pc + 1) (exec (.rstT t) s) fun u =>
      exec (.rstT t) s = .next { u with pc := BitVec.ofNat 16 (8 * t.toNat) })

/-- 40_source_named.md R89, 46_ext_control.md R175, R176: the returns pop `pc`; RETI also enables
interrupts at once, the others do not touch `ime`; a conditional return not taken only advances. -/
def Obligations.Returns : Prop :=
  (Coded .ret [0xC9] .s 16 16 ∧ ∀ s : State, AfterPop s (exec .ret s) fun w u =>
    exec .ret s = .next { u with pc := w }) ∧
  (∀ cc : Cond, Coded (.retCc cc) [byteOf (0xC0 + 8 * ccCode cc)] .x 20 8 ∧
    ∀ s : State, taken (.retCc cc) s = condHolds s cc ∧
      (condHolds s cc = true → AfterPop s (exec (.retCc cc) s) fun w u =>
        exec (.retCc cc) s = .next { u with pc := w }) ∧
      (condHolds s cc = false → exec (.retCc cc) s = .next { s with pc := s.pc + 1 })) ∧
  (Coded .reti [0xD9] .x 16 16 ∧ ∀ s : State, AfterPop s (exec .reti s) fun w u =>
    exec .reti s = .next { u with pc := w, ime := true, imePending := false })

/-- 40_source_named.md R89: a call immediately followed by RET restores `pc` to the instruction after the
call and `sp` to its value before it; so for CALL, for a CALL cc that is taken and for RST. -/
def Obligations.CallThenReturn : Prop :=
  ∀ (i : Instr) (s t : State),
    ((∃ n, i = .callN16 n) ∨ (∃ cc n, i = .callCcN16 cc n ∧ condHolds s cc = true) ∨
      (∃ slot, i = .rstT slot)) →
    s.fault = none → exec i s = .next t → t.fault = none →
    exec .ret t = .next { t with pc := s.pc + BitVec.ofNat 16 i.length, sp := s.sp }

/-- 40_source_named.md R90, 46_ext_control.md R170, R171, R172, R173: the jumps. -/
def Obligations.Jumps : Prop :=
  (∀ n : Word, Coded (.jpN16 n) [0xC3, lo8 n, hi8 n] .s 16 16 ∧
    ∀ s : State, exec (.jpN16 n) s = .next { s with pc := n }) ∧
  (∀ (cc : Cond) (n : Word),
    Coded (.jpCcN16 cc n) [byteOf (0xC2 + 8 * ccCode cc), lo8 n, hi8 n] .x 16 12 ∧
    ∀ s : State, taken (.jpCcN16 cc n) s = condHolds s cc ∧
      exec (.jpCcN16 cc n) s = .next { s with pc := if condHolds s cc then n else s.pc + 3 }) ∧
  (Coded .jpHl [0xE9] .x 4 4 ∧ ∀ s : State, exec .jpHl s = .next { s with pc := s.h ++ s.l }) ∧
  (∀ e : Byte, Coded (.jrE8 e) [0x18, e] .x 12 12 ∧
    ∀ s : State, exec (.jrE8 e) s =
      .next { s with pc := BitVec.ofInt 16 (s.pc.toNat + 2 + e.toInt) }) ∧
  (∀ (cc : Cond) (e : Byte),
    Coded (.jrCcE8 cc e) [byteOf (0x20 + 8 * ccCode cc), e] .x 12 8 ∧
    ∀ s : State, taken (.jrCcE8 cc e) s = condHolds s cc ∧
      exec (.jrCcE8 cc e) s = .next { s with
        pc := if condHolds s cc then BitVec.ofInt 16 (s.pc.toNat + 2 + e.toInt) else s.pc + 2 })

/-! ### Arithmetic and logic -/

/-- 43_ext_alu8.md R130, R131: ADD and ADC, the sums over the integers. -/
def Obligations.Additions : Prop :=
  (AccumulatorRule .addAR8 .addAN8 0x80 0xC6 .x fun s v =>
    { s with
      a := byteOf (s.a.toNat + v.toNat),
      f := flagByte (decide ((s.a.toNat + v.toNat) % 256 = 0)) false
        (decide (s.a.toNat % 16 + v.toNat % 16 > 0x0F)) (decide (s.a.toNat + v.toNat > 0xFF)) }) ∧
  (AccumulatorRule .adcAR8 .adcAN8 0x88 0xCE .x fun s v =>
    { s with
      a := byteOf (s.a.toNat + v.toNat + bit (fc s)),
      f := flagByte (decide ((s.a.toNat + v.toNat + bit (fc s)) % 256 = 0)) false
        (decide (s.a.toNat % 16 + v.toNat % 16 + bit (fc s) > 0x0F))
        (decide (s.a.toNat + v.toNat + bit (fc s) > 0xFF)) })

/-- 43_ext_alu8.md R132, R133, 40_source_named.md R84: SUB, SBC, and CP, which stores nothing. -/
def Obligations.SubtractionsAndCompare : Prop :=
  (AccumulatorRule .subAR8 .subAN8 0x90 0xD6 .x fun s v =>
    { s with
      a := byteOf (256 + s.a.toNat - v.toNat),
      f := flagByte (decide (s.a = v)) true (decide (s.a.toNat % 16 < v.toNat % 16))
        (decide (s.a.toNat < v.toNat)) }) ∧
  (AccumulatorRule .sbcAR8 .sbcAN8 0x98 0xDE .x fun s v =>
    { s with
      a := byteOf (256 + s.a.toNat - v.toNat - bit (fc s)),
      f := flagByte (decide ((256 + s.a.toNat - v.toNat - bit (fc s)) % 256 = 0)) true
        (decide (s.a.toNat % 16 < v.toNat % 16 + bit (fc s)))
        (decide (s.a.toNat < v.toNat + bit (fc s))) }) ∧
  (AccumulatorRule .cpAR8 .cpAN8 0xB8 0xFE .s fun s v =>
    { s with
      f := flagByte (decide (s.a = v)) true (decide (s.a.toNat % 16 < v.toNat % 16))
        (decide (s.a.toNat < v.toNat)) })

/-- 43_ext_alu8.md R134, R135, 40_source_named.md R92: AND, OR and XOR, and XOR A,A in particular. -/
def Obligations.Logic : Prop :=
  (AccumulatorRule .andAR8 .andAN8 0xA0 0xE6 .x fun s v =>
    { s with a := s.a &&& v, f := flagByte (decide (s.a &&& v = 0)) false true false }) ∧
  (AccumulatorRule .xorAR8 .xorAN8 0xA8 0xEE .s fun s v =>
    { s with a := s.a ^^^ v, f := flagByte (decide (s.a ^^^ v = 0)) false false false }) ∧
  (AccumulatorRule .orAR8 .orAN8 0xB0 0xF6 .x fun s v =>
    { s with a := s.a ||| v, f := flagByte (decide (s.a ||| v = 0)) false false false }) ∧
  (∀ s : State, exec (.xorAR8 .a) s = .next { s with a := 0x00, f := 0x80, pc := s.pc + 1 })

/-- 40_source_named.md R82, R83: INC r8 and DEC r8 in every operand form; C is kept. That a raising
write back of `(HL)` leaves `f` as it was is log 5 (DEDUCED from the order of the pseudocode and
60_exceptions.md R206), no sentence of the spec. -/
def Obligations.IncrementAndDecrement : Prop :=
  (∀ r : R8,
    Coded (.incR8 r) [byteOf (0x04 + 8 * r8Code r)] .s (if r = .mhl then 12 else 4)
      (if r = .mhl then 12 else 4) ∧
    Coded (.decR8 r) [byteOf (0x05 + 8 * r8Code r)] .s (if r = .mhl then 12 else 4)
      (if r = .mhl then 12 else 4)) ∧
  ∀ (r : R8) (s : State), LowNibbleZero s →
    ModifiesOperand (.incR8 r) s r (fun v => byteOf (v.toNat + 1)) (fun _ => s)
      (fun v u => { u with
        f := flagByte (decide (v.toNat = 0xFF)) false (decide (v.toNat % 16 = 15)) (fc s),
        pc := s.pc + 1 }) ∧
    ModifiesOperand (.decR8 r) s r (fun v => byteOf (v.toNat + 255)) (fun _ => s)
      (fun v u => { u with
        f := flagByte (decide (v.toNat = 1)) true (decide (v.toNat % 16 = 0)) (fc s),
        pc := s.pc + 1 })

/-- 43_ext_alu8.md R136: DAA, case by case. -/
def Obligations.DecimalAdjust : Prop :=
  Coded .daa [0x27] .x 4 4 ∧
  ∀ s : State, LowNibbleZero s →
    let low := if fh s = true ∨ (fn s = false ∧ s.a.toNat % 16 > 0x09) then 0x06 else 0
    let carry := decide (fc s = true ∨ (fn s = false ∧ s.a.toNat > 0x99))
    let adj := low + if carry then 0x60 else 0
    let r := if fn s then byteOf (256 + s.a.toNat - adj) else byteOf (s.a.toNat + adj)
    exec .daa s = .next { s with
      a := r, f := flagByte (decide (r = 0)) (fn s) false carry, pc := s.pc + 1 }

/-- 43_ext_alu8.md R136, R131, R133: what DAA is for. After an ADC or an SBC of packed decimal numbers
with either carry, DAA leaves the decimal sum or difference of two digits and its decimal carry. -/
def Obligations.DecimalAdjustCorrects : Prop :=
  ∀ (s t : State) (x y : Nat), x < 100 → y < 100 → s.a = bcd x →
    (exec (.adcAN8 (bcd y)) s = .next t → ∃ u, exec .daa t = .next u ∧
      u.a = bcd ((x + y + bit (fc s)) % 100) ∧ fc u = decide (x + y + bit (fc s) ≥ 100)) ∧
    (exec (.sbcAN8 (bcd y)) s = .next t → ∃ u, exec .daa t = .next u ∧
      u.a = bcd ((100 + x - y - bit (fc s)) % 100) ∧ fc u = decide (x < y + bit (fc s)))

/-- 43_ext_alu8.md R137, R138, R139: CPL, SCF and CCF with the flags each keeps. -/
def Obligations.FlagAdjustments : Prop :=
  Coded .cpl [0x2F] .x 4 4 ∧ Coded .scf [0x37] .x 4 4 ∧ Coded .ccf [0x3F] .x 4 4 ∧
  ∀ s : State, LowNibbleZero s →
    exec .cpl s = .next { s with
      a := byteOf (255 - s.a.toNat), f := flagByte (fz s) true true (fc s), pc := s.pc + 1 } ∧
    exec .scf s = .next { s with f := flagByte (fz s) false false true, pc := s.pc + 1 } ∧
    exec .ccf s = .next { s with f := flagByte (fz s) false false (!fc s), pc := s.pc + 1 }

/-- 44_ext_alu16.md R140, R141, R142, R143: INC rr and DEC rr, which write no flag, ADD HL,rr, which keeps
Z, and ADD SP,e8. -/
def Obligations.SixteenBitArithmetic : Prop :=
  (∀ rr : PairSp, Coded (.incRr rr) [byteOf (0x03 + 16 * spCode rr)] .x 8 8 ∧
    Coded (.decRr rr) [byteOf (0x0B + 16 * spCode rr)] .x 8 8 ∧
    Coded (.addHlRr rr) [byteOf (0x09 + 16 * spCode rr)] .x 8 8) ∧
  (∀ (rr : PairSp) (s : State) (d : Word) (i : Instr),
    (i = .incRr rr ∧ d = 1) ∨ (i = .decRr rr ∧ d = 0xFFFF) →
    exec i s = .next (match rr with
      | .bc => { s with b := hi8 (s.bc + d), c := lo8 (s.bc + d), pc := s.pc + 1 }
      | .de => { s with d := hi8 (s.de + d), e := lo8 (s.de + d), pc := s.pc + 1 }
      | .hl => { s with h := hi8 (s.hl + d), l := lo8 (s.hl + d), pc := s.pc + 1 }
      | .sp => { s with sp := s.sp + d, pc := s.pc + 1 })) ∧
  (∀ (rr : PairSp) (s : State), LowNibbleZero s →
    let w := s.pairSp rr
    exec (.addHlRr rr) s = .next { s with
      h := hi8 (s.hl + w), l := lo8 (s.hl + w),
      f := flagByte (fz s) false (decide (s.hl.toNat % 4096 + w.toNat % 4096 > 0x0FFF))
        (decide (s.hl.toNat + w.toNat > 0xFFFF)),
      pc := s.pc + 1 }) ∧
  (∀ e : Byte, Coded (.addSpE8 e) [0xE8, e] .x 16 16 ∧ ∀ s : State,
    exec (.addSpE8 e) s = .next { s with
      sp := BitVec.ofInt 16 (s.sp.toNat + e.toInt),
      f := flagByte false false (decide (s.sp.toNat % 16 + e.toNat % 16 > 0x0F))
        (decide (s.sp.toNat % 256 + e.toNat > 0xFF)),
      pc := s.pc + 2 })

/-! ### Rotates, shifts and bits -/

/-- 45_ext_rotate_shift_bit.md R150, R151, R152, R153: the accumulator rotates, as integers. -/
def Obligations.AccumulatorRotates : Prop :=
  RotateRule .rlca 0x07 (fun v _ => v.toNat * 2 + v.toNat / 128) (fun v => v.getLsbD 7) ∧
  RotateRule .rla 0x17 (fun v c => v.toNat * 2 + bit c) (fun v => v.getLsbD 7) ∧
  RotateRule .rrca 0x0F (fun v _ => v.toNat / 2 + v.toNat % 2 * 128) (fun v => v.getLsbD 0) ∧
  RotateRule .rra 0x1F (fun v c => v.toNat / 2 + bit c * 128) (fun v => v.getLsbD 0)

/-- 45_ext_rotate_shift_bit.md R154 to R161: the prefixed rotates and shifts, as integers, in every
operand form. That a raising write back of `(HL)` leaves the new flags is log 5 (DEDUCED from the
template's order and 60_exceptions.md R206), no sentence of the spec. -/
def Obligations.PrefixedRotatesAndShifts : Prop :=
  ShiftRule .rlcR8 0x00 (fun v _ => v.toNat * 2 + v.toNat / 128) (fun v => v.getLsbD 7) ∧
  ShiftRule .rrcR8 0x08 (fun v _ => v.toNat / 2 + v.toNat % 2 * 128) (fun v => v.getLsbD 0) ∧
  ShiftRule .rlR8 0x10 (fun v c => v.toNat * 2 + bit c) (fun v => v.getLsbD 7) ∧
  ShiftRule .rrR8 0x18 (fun v c => v.toNat / 2 + bit c * 128) (fun v => v.getLsbD 0) ∧
  ShiftRule .slaR8 0x20 (fun v _ => v.toNat * 2) (fun v => v.getLsbD 7) ∧
  ShiftRule .sraR8 0x28 (fun v _ => v.toNat / 2 + v.toNat / 128 * 128) (fun v => v.getLsbD 0) ∧
  ShiftRule .swapR8 0x30 (fun v _ => v.toNat % 16 * 16 + v.toNat / 16) (fun _ => false) ∧
  ShiftRule .srlR8 0x38 (fun v _ => v.toNat / 2) (fun v => v.getLsbD 0)

/-- 40_source_named.md R85: BIT b,r8 in every operand form; only Z, N and H are written. -/
def Obligations.BitTest : Prop :=
  (∀ (b : BitVec 3) (r : R8),
    Coded (.bitBR8 b r) [0xCB, byteOf (0x40 + 8 * b.toNat + r8Code r)] .s
      (if r = .mhl then 12 else 8) (if r = .mhl then 12 else 8)) ∧
  ∀ (b : BitVec 3) (r : R8) (s : State), LowNibbleZero s →
    UsesOperand (.bitBR8 b r) s r fun v =>
      { s with f := flagByte (decide (v.toNat / 2 ^ b.toNat % 2 = 0)) false true (fc s),
               pc := s.pc + 2 }

/-- 45_ext_rotate_shift_bit.md R162, R163: RES and SET change the one bit and no flag, in every operand
form. -/
def Obligations.BitClearAndSet : Prop :=
  (∀ (b : BitVec 3) (r : R8),
    Coded (.resBR8 b r) [0xCB, byteOf (0x80 + 8 * b.toNat + r8Code r)] .x
      (if r = .mhl then 16 else 8) (if r = .mhl then 16 else 8) ∧
    Coded (.setBR8 b r) [0xCB, byteOf (0xC0 + 8 * b.toNat + r8Code r)] .x
      (if r = .mhl then 16 else 8) (if r = .mhl then 16 else 8)) ∧
  ∀ (b : BitVec 3) (r : R8) (s : State),
    ModifiesOperand (.resBR8 b r) s r
      (fun v => byteOf (v.toNat - v.toNat / 2 ^ b.toNat % 2 * 2 ^ b.toNat)) (fun _ => s)
      (fun _ u => { u with pc := s.pc + 2 }) ∧
    ModifiesOperand (.setBR8 b r) s r
      (fun v => byteOf (v.toNat + (1 - v.toNat / 2 ^ b.toNat % 2) * 2 ^ b.toNat)) (fun _ => s)
      (fun _ u => { u with pc := s.pc + 2 })

/-! ### Frames, for every instruction -/

/-- Every register but the destinations the rule names keeps its value, `sp` too unless the rule writes
it (10_state.md R15). `f` is the subject of `FlagFrame`. -/
def Obligations.RegisterFrame : Prop :=
  ∀ (i : Instr) (s t : State), exec i s = .next t →
    (∀ q : Reg, q ≠ .f → q ∉ i.dests → t.reg q = s.reg q) ∧
    (i.writesSp = false → t.sp = s.sp)

/-- 10_state.md R13: a flag the rule does not name keeps its value; where it names none `f` is untouched;
the low nibble stays zero. -/
def Obligations.FlagFrame : Prop :=
  ∀ (i : Instr) (s t : State), exec i s = .next t →
    (i.flagsWritten.z = false → fz t = fz s) ∧ (i.flagsWritten.n = false → fn t = fn s) ∧
    (i.flagsWritten.h = false → fh t = fh s) ∧ (i.flagsWritten.c = false → fc t = fc s) ∧
    (i.flagsWritten = ⟨false, false, false, false⟩ → t.f = s.f) ∧
    (LowNibbleZero s → LowNibbleZero t)

/-- Every byte outside the addresses the rule stores to reads as before, for a form that stores nothing
every byte; and an instruction that does not raise stores to exactly those addresses, in that order. -/
def Obligations.MemoryFrame : Prop :=
  ∀ (i : Instr) (s t : State), s.fault = none → exec i s = .next t →
    (∀ a : Word, (∀ x ∈ i.storeAddrs s, s.route a ≠ s.route x) → t.busRead a = s.busRead a) ∧
    (t.fault = none →
      t.out.writes.map (·.1) = s.out.writes.map (·.1) ++ i.storeAddrs s)

/-- The state no instruction's rule names keeps its value: `ime` and the pending enable unless the
instruction is EI, DI or RETI (10_state.md R16), the boot mapping, the video controller, the operation
count and the launch. The host's plan and the output port are the model's own fields (DESIGN CHOICE,
logs 6 and 7): that an instruction leaves the plan, the returned cycles and the rendered lines alone is
no rule of the spec. -/
def Obligations.SystemFrame : Prop :=
  ∀ (i : Instr) (s t : State), exec i s = .next t →
    (i ≠ .di → i ≠ .reti → t.ime = s.ime) ∧
    (i ≠ .ei → i ≠ .di → i ≠ .reti → t.imePending = s.imePending) ∧
    t.bootMapped = s.bootMapped ∧ t.ppu = s.ppu ∧ t.opCount = s.opCount ∧ t.launch = s.launch ∧
    t.hostPlan = s.hostPlan ∧ t.out.cycles = s.out.cycles ∧ t.out.rendered = s.out.rendered
end

