-- ==== Sys2Proof/Laws/Memory.lean ====
section
/-! SUPPORT. The laws of one store: read after write, the canonical form and its bound are kept, and
two canonical stores that read alike are the same list. -/

namespace Sys2Proof.Machine

/-! ### Read after write -/

theorem Memory.read_insert (m : Memory) (k j : Nat) (v : Byte) :
    (m.insert k v).read j = if j = k then v else m.read j := by
  induction m with
  | nil => simp [Memory.insert, Memory.read, eq_comm]
  | cons cell rest ih =>
    obtain ⟨i, w⟩ := cell
    simp only [Memory.insert]
    split
    · by_cases h : j = k
      · simp [Memory.read, h]
      · simp [Memory.read, h, Ne.symm h]
    · split
      · subst k
        by_cases h : j = i
        · simp [Memory.read, h]
        · simp [Memory.read, h, Ne.symm h]
      · rename_i hne
        simp only [Memory.read, ih]
        by_cases h : i = j
        · subst h; simp [Ne.symm hne]
        · simp [h]

theorem Memory.read_erase (m : Memory) (k j : Nat) :
    (m.erase k).read j = if j = k then unlistedByte else m.read j := by
  induction m with
  | nil => simp [Memory.erase, Memory.read]
  | cons cell rest ih =>
    obtain ⟨i, w⟩ := cell
    simp only [Memory.erase] at ih
    by_cases hk : i = k
    · subst hk
      simp only [Memory.erase, List.filter_cons, bne_self_eq_false, Bool.false_eq_true, if_false, ih]
      by_cases hj : j = i
      · simp [hj]
      · simp [Memory.read, hj, Ne.symm hj]
    · simp only [Memory.erase, List.filter_cons, bne_iff_ne, ne_eq, hk, not_false_iff, if_true,
        Memory.read, ih]
      by_cases hj : i = j
      · subst hj; simp [hk]
      · simp [hj]

/-- A read after a write to a store: the written byte at the written offset, the old one elsewhere. -/
theorem Memory.read_write (m : Memory) (k j : Nat) (v : Byte) :
    (m.write k v).read j = if j = k then v else m.read j := by
  simp only [Memory.write]
  split
  · next h => rw [Memory.read_erase, h]
  · exact Memory.read_insert m k j v

@[simp] theorem Memory.read_write_same (m : Memory) (k : Nat) (v : Byte) :
    (m.write k v).read k = v := by simp [Memory.read_write]

theorem Memory.read_write_ne (m : Memory) {k j : Nat} (v : Byte) (h : j ≠ k) :
    (m.write k v).read j = m.read j := by simp [Memory.read_write, h]

/-! ### The canonical form -/

theorem Memory.wfFrom_mono {lo lo' : Nat} (h : lo' ≤ lo) (m : Memory) (hm : Memory.wfFrom lo m = true) :
    Memory.wfFrom lo' m = true := by
  cases m with
  | nil => rfl
  | cons cell rest =>
    simp only [Memory.wfFrom, Bool.and_eq_true, decide_eq_true_eq] at hm ⊢
    exact ⟨⟨h.trans hm.1.1, hm.1.2⟩, hm.2⟩

theorem Memory.wfFrom_insert (m : Memory) (lo k : Nat) (v : Byte) (hv : v ≠ unlistedByte)
    (hlo : lo ≤ k) (hm : Memory.wfFrom lo m = true) : Memory.wfFrom lo (m.insert k v) = true := by
  induction m generalizing lo with
  | nil => simp [Memory.insert, Memory.wfFrom, hv, hlo]
  | cons cell rest ih =>
    obtain ⟨i, w⟩ := cell
    simp only [Memory.wfFrom, Bool.and_eq_true, decide_eq_true_eq, bne_iff_ne, ne_eq] at hm
    simp only [Memory.insert]
    split
    · next h => simp [Memory.wfFrom, hv, hlo, hm, Nat.succ_le_of_lt h]
    · split
      · next h => subst h; simp [Memory.wfFrom, hv, hlo, hm]
      · next h₁ h₂ =>
        simp only [Memory.wfFrom, Bool.and_eq_true, decide_eq_true_eq, bne_iff_ne, ne_eq]
        exact ⟨⟨hm.1.1, hm.1.2⟩, ih (i + 1) (by omega) hm.2⟩

theorem Memory.wfFrom_erase (m : Memory) (lo k : Nat) (hm : Memory.wfFrom lo m = true) :
    Memory.wfFrom lo (m.erase k) = true := by
  induction m generalizing lo with
  | nil => rfl
  | cons cell rest ih =>
    obtain ⟨i, w⟩ := cell
    simp only [Memory.wfFrom, Bool.and_eq_true, decide_eq_true_eq] at hm
    simp only [Memory.erase] at ih
    simp only [Memory.erase, List.filter_cons]
    split
    · simp only [Memory.wfFrom, Bool.and_eq_true, decide_eq_true_eq]
      exact ⟨hm.1, ih (i + 1) hm.2⟩
    · exact Memory.wfFrom_mono (by omega) _ (ih (i + 1) hm.2)

/-- A write keeps the canonical form. -/
theorem Memory.wf_write (m : Memory) (k : Nat) (v : Byte) (hm : m.wf = true) :
    (m.write k v).wf = true := by
  simp only [Memory.write]
  split
  · exact Memory.wfFrom_erase m 0 k hm
  · next h => exact Memory.wfFrom_insert m 0 k v h (Nat.zero_le k) hm

/-- A write below the bound keeps the bound. -/
theorem Memory.within_write (m : Memory) (n k : Nat) (v : Byte) (hk : k < n)
    (hm : m.within n = true) : (m.write k v).within n = true := by
  simp only [Memory.within, List.all_eq_true, decide_eq_true_eq] at hm ⊢
  have insert_mem : ∀ (m : Memory) (cell : Host.Cell), cell ∈ m.insert k v →
      cell = (k, v) ∨ cell ∈ m := by
    intro m
    induction m with
    | nil => simp [Memory.insert]
    | cons head rest ih =>
      intro cell
      simp only [Memory.insert]
      split
      · simp
      · split
        · simp only [List.mem_cons]; tauto
        · simp only [List.mem_cons]
          rintro (h | h)
          · exact .inr (.inl h)
          · rcases ih cell h with h | h <;> tauto
  intro cell hcell
  simp only [Memory.write] at hcell
  split at hcell
  · exact hm cell (List.mem_filter.mp hcell).1
  · rcases insert_mem m cell hcell with h | h
    · subst h; exact hk
    · exact hm cell h

/-! ### Equal contents are equal data -/

theorem Memory.read_below {lo k : Nat} (m : Memory) (hm : Memory.wfFrom lo m = true) (hk : k < lo) :
    m.read k = unlistedByte := by
  induction m generalizing lo with
  | nil => rfl
  | cons cell rest ih =>
    obtain ⟨i, w⟩ := cell
    simp only [Memory.wfFrom, Bool.and_eq_true, decide_eq_true_eq] at hm
    simp only [Memory.read, show i ≠ k by omega, if_false]
    exact ih hm.2 (by omega)

/-- Two stores in canonical form that read alike are the same list. -/
theorem Memory.ext_of_read {m m' : Memory} (hm : m.wf = true) (hm' : m'.wf = true)
    (h : ∀ k, m.read k = m'.read k) : m = m' := by
  have aux : ∀ (m m' : Memory) (lo : Nat), Memory.wfFrom lo m = true → Memory.wfFrom lo m' = true →
      (∀ k, m.read k = m'.read k) → m = m' := by
    intro m
    induction m with
    | nil =>
      intro m' lo _ h' hr
      cases m' with
      | nil => rfl
      | cons cell rest =>
        obtain ⟨i, w⟩ := cell
        simp only [Memory.wfFrom, Bool.and_eq_true, bne_iff_ne, ne_eq] at h'
        have := hr i
        simp [Memory.read] at this
        exact absurd this.symm h'.1.2
    | cons cell rest ih =>
      intro m' lo h₁ h' hr
      obtain ⟨i, w⟩ := cell
      cases m' with
      | nil =>
        simp only [Memory.wfFrom, Bool.and_eq_true, bne_iff_ne, ne_eq] at h₁
        have := hr i
        simp [Memory.read] at this
        exact absurd this h₁.1.2
      | cons cell' rest' =>
        obtain ⟨j, w'⟩ := cell'
        simp only [Memory.wfFrom, Bool.and_eq_true, decide_eq_true_eq, bne_iff_ne, ne_eq] at h₁ h'
        have hij : i = j := by
          rcases Nat.lt_trichotomy i j with hlt | heq | hgt
          · have := hr i
            rw [show Memory.read ((j, w') :: rest') i = unlistedByte by
              simp only [Memory.read, show j ≠ i by omega, if_false]
              exact Memory.read_below rest' h'.2 (by omega)] at this
            simp [Memory.read] at this
            exact absurd this h₁.1.2
          · exact heq
          · have := hr j
            rw [show Memory.read ((i, w) :: rest) j = unlistedByte by
              simp only [Memory.read, show i ≠ j by omega, if_false]
              exact Memory.read_below rest h₁.2 (by omega)] at this
            simp [Memory.read] at this
            exact absurd this.symm h'.1.2
        subst hij
        have hw : w = w' := by simpa [Memory.read] using hr i
        subst hw
        rw [ih rest' (i + 1) h₁.2 h'.2]
        intro k
        by_cases hk : i = k
        · subst hk
          rw [Memory.read_below rest h₁.2 (by omega), Memory.read_below rest' h'.2 (by omega)]
        · simpa [Memory.read, hk] using hr k
  exact aux m m' 0 hm hm' h

end Sys2Proof.Machine
end

