-- ==== Sys2Proof/Laws/State.lean ====
section
/-! SUPPORT. What each named update of a state does to each of its fields, and that an update outside
the bus leaves every byte as it was. -/

namespace Sys2Proof.Machine

variable (s : State)

/-! ### `setBc` -/

@[simp] theorem State.setBc_a (w : Word) : (s.setBc w).a = s.a := rfl
@[simp] theorem State.setBc_f (w : Word) : (s.setBc w).f = s.f := rfl
@[simp] theorem State.setBc_b (w : Word) : (s.setBc w).b = hi8 w := rfl
@[simp] theorem State.setBc_c (w : Word) : (s.setBc w).c = lo8 w := rfl
@[simp] theorem State.setBc_d (w : Word) : (s.setBc w).d = s.d := rfl
@[simp] theorem State.setBc_e (w : Word) : (s.setBc w).e = s.e := rfl
@[simp] theorem State.setBc_h (w : Word) : (s.setBc w).h = s.h := rfl
@[simp] theorem State.setBc_l (w : Word) : (s.setBc w).l = s.l := rfl
@[simp] theorem State.setBc_pc (w : Word) : (s.setBc w).pc = s.pc := rfl
@[simp] theorem State.setBc_sp (w : Word) : (s.setBc w).sp = s.sp := rfl
@[simp] theorem State.setBc_ime (w : Word) : (s.setBc w).ime = s.ime := rfl
@[simp] theorem State.setBc_imePending (w : Word) : (s.setBc w).imePending = s.imePending := rfl
@[simp] theorem State.setBc_mem (w : Word) : (s.setBc w).mem = s.mem := rfl
@[simp] theorem State.setBc_bootMapped (w : Word) : (s.setBc w).bootMapped = s.bootMapped := rfl
@[simp] theorem State.setBc_ppu (w : Word) : (s.setBc w).ppu = s.ppu := rfl
@[simp] theorem State.setBc_fault (w : Word) : (s.setBc w).fault = s.fault := rfl
@[simp] theorem State.setBc_opCount (w : Word) : (s.setBc w).opCount = s.opCount := rfl
@[simp] theorem State.setBc_launch (w : Word) : (s.setBc w).launch = s.launch := rfl
@[simp] theorem State.setBc_hostPlan (w : Word) : (s.setBc w).hostPlan = s.hostPlan := rfl
@[simp] theorem State.setBc_out (w : Word) : (s.setBc w).out = s.out := rfl

/-! ### `setDe` -/

@[simp] theorem State.setDe_a (w : Word) : (s.setDe w).a = s.a := rfl
@[simp] theorem State.setDe_f (w : Word) : (s.setDe w).f = s.f := rfl
@[simp] theorem State.setDe_b (w : Word) : (s.setDe w).b = s.b := rfl
@[simp] theorem State.setDe_c (w : Word) : (s.setDe w).c = s.c := rfl
@[simp] theorem State.setDe_d (w : Word) : (s.setDe w).d = hi8 w := rfl
@[simp] theorem State.setDe_e (w : Word) : (s.setDe w).e = lo8 w := rfl
@[simp] theorem State.setDe_h (w : Word) : (s.setDe w).h = s.h := rfl
@[simp] theorem State.setDe_l (w : Word) : (s.setDe w).l = s.l := rfl
@[simp] theorem State.setDe_pc (w : Word) : (s.setDe w).pc = s.pc := rfl
@[simp] theorem State.setDe_sp (w : Word) : (s.setDe w).sp = s.sp := rfl
@[simp] theorem State.setDe_ime (w : Word) : (s.setDe w).ime = s.ime := rfl
@[simp] theorem State.setDe_imePending (w : Word) : (s.setDe w).imePending = s.imePending := rfl
@[simp] theorem State.setDe_mem (w : Word) : (s.setDe w).mem = s.mem := rfl
@[simp] theorem State.setDe_bootMapped (w : Word) : (s.setDe w).bootMapped = s.bootMapped := rfl
@[simp] theorem State.setDe_ppu (w : Word) : (s.setDe w).ppu = s.ppu := rfl
@[simp] theorem State.setDe_fault (w : Word) : (s.setDe w).fault = s.fault := rfl
@[simp] theorem State.setDe_opCount (w : Word) : (s.setDe w).opCount = s.opCount := rfl
@[simp] theorem State.setDe_launch (w : Word) : (s.setDe w).launch = s.launch := rfl
@[simp] theorem State.setDe_hostPlan (w : Word) : (s.setDe w).hostPlan = s.hostPlan := rfl
@[simp] theorem State.setDe_out (w : Word) : (s.setDe w).out = s.out := rfl

/-! ### `setHl` -/

@[simp] theorem State.setHl_a (w : Word) : (s.setHl w).a = s.a := rfl
@[simp] theorem State.setHl_f (w : Word) : (s.setHl w).f = s.f := rfl
@[simp] theorem State.setHl_b (w : Word) : (s.setHl w).b = s.b := rfl
@[simp] theorem State.setHl_c (w : Word) : (s.setHl w).c = s.c := rfl
@[simp] theorem State.setHl_d (w : Word) : (s.setHl w).d = s.d := rfl
@[simp] theorem State.setHl_e (w : Word) : (s.setHl w).e = s.e := rfl
@[simp] theorem State.setHl_h (w : Word) : (s.setHl w).h = hi8 w := rfl
@[simp] theorem State.setHl_l (w : Word) : (s.setHl w).l = lo8 w := rfl
@[simp] theorem State.setHl_pc (w : Word) : (s.setHl w).pc = s.pc := rfl
@[simp] theorem State.setHl_sp (w : Word) : (s.setHl w).sp = s.sp := rfl
@[simp] theorem State.setHl_ime (w : Word) : (s.setHl w).ime = s.ime := rfl
@[simp] theorem State.setHl_imePending (w : Word) : (s.setHl w).imePending = s.imePending := rfl
@[simp] theorem State.setHl_mem (w : Word) : (s.setHl w).mem = s.mem := rfl
@[simp] theorem State.setHl_bootMapped (w : Word) : (s.setHl w).bootMapped = s.bootMapped := rfl
@[simp] theorem State.setHl_ppu (w : Word) : (s.setHl w).ppu = s.ppu := rfl
@[simp] theorem State.setHl_fault (w : Word) : (s.setHl w).fault = s.fault := rfl
@[simp] theorem State.setHl_opCount (w : Word) : (s.setHl w).opCount = s.opCount := rfl
@[simp] theorem State.setHl_launch (w : Word) : (s.setHl w).launch = s.launch := rfl
@[simp] theorem State.setHl_hostPlan (w : Word) : (s.setHl w).hostPlan = s.hostPlan := rfl
@[simp] theorem State.setHl_out (w : Word) : (s.setHl w).out = s.out := rfl

/-! ### `setAf` -/

@[simp] theorem State.setAf_a (w : Word) : (s.setAf w).a = hi8 w := rfl
@[simp] theorem State.setAf_f (w : Word) : (s.setAf w).f = lo8 w &&& 0xF0 := rfl
@[simp] theorem State.setAf_b (w : Word) : (s.setAf w).b = s.b := rfl
@[simp] theorem State.setAf_c (w : Word) : (s.setAf w).c = s.c := rfl
@[simp] theorem State.setAf_d (w : Word) : (s.setAf w).d = s.d := rfl
@[simp] theorem State.setAf_e (w : Word) : (s.setAf w).e = s.e := rfl
@[simp] theorem State.setAf_h (w : Word) : (s.setAf w).h = s.h := rfl
@[simp] theorem State.setAf_l (w : Word) : (s.setAf w).l = s.l := rfl
@[simp] theorem State.setAf_pc (w : Word) : (s.setAf w).pc = s.pc := rfl
@[simp] theorem State.setAf_sp (w : Word) : (s.setAf w).sp = s.sp := rfl
@[simp] theorem State.setAf_ime (w : Word) : (s.setAf w).ime = s.ime := rfl
@[simp] theorem State.setAf_imePending (w : Word) : (s.setAf w).imePending = s.imePending := rfl
@[simp] theorem State.setAf_mem (w : Word) : (s.setAf w).mem = s.mem := rfl
@[simp] theorem State.setAf_bootMapped (w : Word) : (s.setAf w).bootMapped = s.bootMapped := rfl
@[simp] theorem State.setAf_ppu (w : Word) : (s.setAf w).ppu = s.ppu := rfl
@[simp] theorem State.setAf_fault (w : Word) : (s.setAf w).fault = s.fault := rfl
@[simp] theorem State.setAf_opCount (w : Word) : (s.setAf w).opCount = s.opCount := rfl
@[simp] theorem State.setAf_launch (w : Word) : (s.setAf w).launch = s.launch := rfl
@[simp] theorem State.setAf_hostPlan (w : Word) : (s.setAf w).hostPlan = s.hostPlan := rfl
@[simp] theorem State.setAf_out (w : Word) : (s.setAf w).out = s.out := rfl

/-! ### `setSp` -/

@[simp] theorem State.setSp_a (w : Word) : (s.setSp w).a = s.a := rfl
@[simp] theorem State.setSp_f (w : Word) : (s.setSp w).f = s.f := rfl
@[simp] theorem State.setSp_b (w : Word) : (s.setSp w).b = s.b := rfl
@[simp] theorem State.setSp_c (w : Word) : (s.setSp w).c = s.c := rfl
@[simp] theorem State.setSp_d (w : Word) : (s.setSp w).d = s.d := rfl
@[simp] theorem State.setSp_e (w : Word) : (s.setSp w).e = s.e := rfl
@[simp] theorem State.setSp_h (w : Word) : (s.setSp w).h = s.h := rfl
@[simp] theorem State.setSp_l (w : Word) : (s.setSp w).l = s.l := rfl
@[simp] theorem State.setSp_pc (w : Word) : (s.setSp w).pc = s.pc := rfl
@[simp] theorem State.setSp_sp (w : Word) : (s.setSp w).sp = w := rfl
@[simp] theorem State.setSp_ime (w : Word) : (s.setSp w).ime = s.ime := rfl
@[simp] theorem State.setSp_imePending (w : Word) : (s.setSp w).imePending = s.imePending := rfl
@[simp] theorem State.setSp_mem (w : Word) : (s.setSp w).mem = s.mem := rfl
@[simp] theorem State.setSp_bootMapped (w : Word) : (s.setSp w).bootMapped = s.bootMapped := rfl
@[simp] theorem State.setSp_ppu (w : Word) : (s.setSp w).ppu = s.ppu := rfl
@[simp] theorem State.setSp_fault (w : Word) : (s.setSp w).fault = s.fault := rfl
@[simp] theorem State.setSp_opCount (w : Word) : (s.setSp w).opCount = s.opCount := rfl
@[simp] theorem State.setSp_launch (w : Word) : (s.setSp w).launch = s.launch := rfl
@[simp] theorem State.setSp_hostPlan (w : Word) : (s.setSp w).hostPlan = s.hostPlan := rfl
@[simp] theorem State.setSp_out (w : Word) : (s.setSp w).out = s.out := rfl

/-! ### `setPc` -/

@[simp] theorem State.setPc_a (w : Word) : (s.setPc w).a = s.a := rfl
@[simp] theorem State.setPc_f (w : Word) : (s.setPc w).f = s.f := rfl
@[simp] theorem State.setPc_b (w : Word) : (s.setPc w).b = s.b := rfl
@[simp] theorem State.setPc_c (w : Word) : (s.setPc w).c = s.c := rfl
@[simp] theorem State.setPc_d (w : Word) : (s.setPc w).d = s.d := rfl
@[simp] theorem State.setPc_e (w : Word) : (s.setPc w).e = s.e := rfl
@[simp] theorem State.setPc_h (w : Word) : (s.setPc w).h = s.h := rfl
@[simp] theorem State.setPc_l (w : Word) : (s.setPc w).l = s.l := rfl
@[simp] theorem State.setPc_pc (w : Word) : (s.setPc w).pc = w := rfl
@[simp] theorem State.setPc_sp (w : Word) : (s.setPc w).sp = s.sp := rfl
@[simp] theorem State.setPc_ime (w : Word) : (s.setPc w).ime = s.ime := rfl
@[simp] theorem State.setPc_imePending (w : Word) : (s.setPc w).imePending = s.imePending := rfl
@[simp] theorem State.setPc_mem (w : Word) : (s.setPc w).mem = s.mem := rfl
@[simp] theorem State.setPc_bootMapped (w : Word) : (s.setPc w).bootMapped = s.bootMapped := rfl
@[simp] theorem State.setPc_ppu (w : Word) : (s.setPc w).ppu = s.ppu := rfl
@[simp] theorem State.setPc_fault (w : Word) : (s.setPc w).fault = s.fault := rfl
@[simp] theorem State.setPc_opCount (w : Word) : (s.setPc w).opCount = s.opCount := rfl
@[simp] theorem State.setPc_launch (w : Word) : (s.setPc w).launch = s.launch := rfl
@[simp] theorem State.setPc_hostPlan (w : Word) : (s.setPc w).hostPlan = s.hostPlan := rfl
@[simp] theorem State.setPc_out (w : Word) : (s.setPc w).out = s.out := rfl

/-! ### `bumpPc` -/

@[simp] theorem State.bumpPc_a (k : Word) : (s.bumpPc k).a = s.a := rfl
@[simp] theorem State.bumpPc_f (k : Word) : (s.bumpPc k).f = s.f := rfl
@[simp] theorem State.bumpPc_b (k : Word) : (s.bumpPc k).b = s.b := rfl
@[simp] theorem State.bumpPc_c (k : Word) : (s.bumpPc k).c = s.c := rfl
@[simp] theorem State.bumpPc_d (k : Word) : (s.bumpPc k).d = s.d := rfl
@[simp] theorem State.bumpPc_e (k : Word) : (s.bumpPc k).e = s.e := rfl
@[simp] theorem State.bumpPc_h (k : Word) : (s.bumpPc k).h = s.h := rfl
@[simp] theorem State.bumpPc_l (k : Word) : (s.bumpPc k).l = s.l := rfl
@[simp] theorem State.bumpPc_pc (k : Word) : (s.bumpPc k).pc = s.pc + k := rfl
@[simp] theorem State.bumpPc_sp (k : Word) : (s.bumpPc k).sp = s.sp := rfl
@[simp] theorem State.bumpPc_ime (k : Word) : (s.bumpPc k).ime = s.ime := rfl
@[simp] theorem State.bumpPc_imePending (k : Word) : (s.bumpPc k).imePending = s.imePending := rfl
@[simp] theorem State.bumpPc_mem (k : Word) : (s.bumpPc k).mem = s.mem := rfl
@[simp] theorem State.bumpPc_bootMapped (k : Word) : (s.bumpPc k).bootMapped = s.bootMapped := rfl
@[simp] theorem State.bumpPc_ppu (k : Word) : (s.bumpPc k).ppu = s.ppu := rfl
@[simp] theorem State.bumpPc_fault (k : Word) : (s.bumpPc k).fault = s.fault := rfl
@[simp] theorem State.bumpPc_opCount (k : Word) : (s.bumpPc k).opCount = s.opCount := rfl
@[simp] theorem State.bumpPc_launch (k : Word) : (s.bumpPc k).launch = s.launch := rfl
@[simp] theorem State.bumpPc_hostPlan (k : Word) : (s.bumpPc k).hostPlan = s.hostPlan := rfl
@[simp] theorem State.bumpPc_out (k : Word) : (s.bumpPc k).out = s.out := rfl

/-! ### `setFlags` -/

@[simp] theorem State.setFlags_a (fl : Flags) : (s.setFlags fl).a = s.a := rfl
@[simp] theorem State.setFlags_f (fl : Flags) : (s.setFlags fl).f = fl.pack := rfl
@[simp] theorem State.setFlags_b (fl : Flags) : (s.setFlags fl).b = s.b := rfl
@[simp] theorem State.setFlags_c (fl : Flags) : (s.setFlags fl).c = s.c := rfl
@[simp] theorem State.setFlags_d (fl : Flags) : (s.setFlags fl).d = s.d := rfl
@[simp] theorem State.setFlags_e (fl : Flags) : (s.setFlags fl).e = s.e := rfl
@[simp] theorem State.setFlags_h (fl : Flags) : (s.setFlags fl).h = s.h := rfl
@[simp] theorem State.setFlags_l (fl : Flags) : (s.setFlags fl).l = s.l := rfl
@[simp] theorem State.setFlags_pc (fl : Flags) : (s.setFlags fl).pc = s.pc := rfl
@[simp] theorem State.setFlags_sp (fl : Flags) : (s.setFlags fl).sp = s.sp := rfl
@[simp] theorem State.setFlags_ime (fl : Flags) : (s.setFlags fl).ime = s.ime := rfl
@[simp] theorem State.setFlags_imePending (fl : Flags) : (s.setFlags fl).imePending = s.imePending := rfl
@[simp] theorem State.setFlags_mem (fl : Flags) : (s.setFlags fl).mem = s.mem := rfl
@[simp] theorem State.setFlags_bootMapped (fl : Flags) : (s.setFlags fl).bootMapped = s.bootMapped := rfl
@[simp] theorem State.setFlags_ppu (fl : Flags) : (s.setFlags fl).ppu = s.ppu := rfl
@[simp] theorem State.setFlags_fault (fl : Flags) : (s.setFlags fl).fault = s.fault := rfl
@[simp] theorem State.setFlags_opCount (fl : Flags) : (s.setFlags fl).opCount = s.opCount := rfl
@[simp] theorem State.setFlags_launch (fl : Flags) : (s.setFlags fl).launch = s.launch := rfl
@[simp] theorem State.setFlags_hostPlan (fl : Flags) : (s.setFlags fl).hostPlan = s.hostPlan := rfl
@[simp] theorem State.setFlags_out (fl : Flags) : (s.setFlags fl).out = s.out := rfl

/-! ### `raise` -/

@[simp] theorem State.raise_a (k : FaultKind) : (s.raise k).a = s.a := rfl
@[simp] theorem State.raise_f (k : FaultKind) : (s.raise k).f = s.f := rfl
@[simp] theorem State.raise_b (k : FaultKind) : (s.raise k).b = s.b := rfl
@[simp] theorem State.raise_c (k : FaultKind) : (s.raise k).c = s.c := rfl
@[simp] theorem State.raise_d (k : FaultKind) : (s.raise k).d = s.d := rfl
@[simp] theorem State.raise_e (k : FaultKind) : (s.raise k).e = s.e := rfl
@[simp] theorem State.raise_h (k : FaultKind) : (s.raise k).h = s.h := rfl
@[simp] theorem State.raise_l (k : FaultKind) : (s.raise k).l = s.l := rfl
@[simp] theorem State.raise_pc (k : FaultKind) : (s.raise k).pc = s.pc := rfl
@[simp] theorem State.raise_sp (k : FaultKind) : (s.raise k).sp = s.sp := rfl
@[simp] theorem State.raise_ime (k : FaultKind) : (s.raise k).ime = s.ime := rfl
@[simp] theorem State.raise_imePending (k : FaultKind) : (s.raise k).imePending = s.imePending := rfl
@[simp] theorem State.raise_mem (k : FaultKind) : (s.raise k).mem = s.mem := rfl
@[simp] theorem State.raise_bootMapped (k : FaultKind) : (s.raise k).bootMapped = s.bootMapped := rfl
@[simp] theorem State.raise_ppu (k : FaultKind) : (s.raise k).ppu = s.ppu := rfl
@[simp] theorem State.raise_fault (k : FaultKind) : (s.raise k).fault = some ⟨k, s.pc⟩ := rfl
@[simp] theorem State.raise_opCount (k : FaultKind) : (s.raise k).opCount = s.opCount := rfl
@[simp] theorem State.raise_launch (k : FaultKind) : (s.raise k).launch = s.launch := rfl
@[simp] theorem State.raise_hostPlan (k : FaultKind) : (s.raise k).hostPlan = s.hostPlan := rfl
@[simp] theorem State.raise_out (k : FaultKind) : (s.raise k).out = s.out := rfl

/-! ### `setMasterEnable` -/

@[simp] theorem State.setMasterEnable_a (on : Bool) : (s.setMasterEnable on).a = s.a := rfl
@[simp] theorem State.setMasterEnable_f (on : Bool) : (s.setMasterEnable on).f = s.f := rfl
@[simp] theorem State.setMasterEnable_b (on : Bool) : (s.setMasterEnable on).b = s.b := rfl
@[simp] theorem State.setMasterEnable_c (on : Bool) : (s.setMasterEnable on).c = s.c := rfl
@[simp] theorem State.setMasterEnable_d (on : Bool) : (s.setMasterEnable on).d = s.d := rfl
@[simp] theorem State.setMasterEnable_e (on : Bool) : (s.setMasterEnable on).e = s.e := rfl
@[simp] theorem State.setMasterEnable_h (on : Bool) : (s.setMasterEnable on).h = s.h := rfl
@[simp] theorem State.setMasterEnable_l (on : Bool) : (s.setMasterEnable on).l = s.l := rfl
@[simp] theorem State.setMasterEnable_pc (on : Bool) : (s.setMasterEnable on).pc = s.pc := rfl
@[simp] theorem State.setMasterEnable_sp (on : Bool) : (s.setMasterEnable on).sp = s.sp := rfl
@[simp] theorem State.setMasterEnable_ime (on : Bool) : (s.setMasterEnable on).ime = on := rfl
@[simp] theorem State.setMasterEnable_imePending (on : Bool) : (s.setMasterEnable on).imePending = false := rfl
@[simp] theorem State.setMasterEnable_mem (on : Bool) : (s.setMasterEnable on).mem = s.mem := rfl
@[simp] theorem State.setMasterEnable_bootMapped (on : Bool) : (s.setMasterEnable on).bootMapped = s.bootMapped := rfl
@[simp] theorem State.setMasterEnable_ppu (on : Bool) : (s.setMasterEnable on).ppu = s.ppu := rfl
@[simp] theorem State.setMasterEnable_fault (on : Bool) : (s.setMasterEnable on).fault = s.fault := rfl
@[simp] theorem State.setMasterEnable_opCount (on : Bool) : (s.setMasterEnable on).opCount = s.opCount := rfl
@[simp] theorem State.setMasterEnable_launch (on : Bool) : (s.setMasterEnable on).launch = s.launch := rfl
@[simp] theorem State.setMasterEnable_hostPlan (on : Bool) : (s.setMasterEnable on).hostPlan = s.hostPlan := rfl
@[simp] theorem State.setMasterEnable_out (on : Bool) : (s.setMasterEnable on).out = s.out := rfl

/-! ### `stored` -/

@[simp] theorem State.stored_a (m : Stores) (x : Word) (v : Byte) : (s.stored m x v).a = s.a := rfl
@[simp] theorem State.stored_f (m : Stores) (x : Word) (v : Byte) : (s.stored m x v).f = s.f := rfl
@[simp] theorem State.stored_b (m : Stores) (x : Word) (v : Byte) : (s.stored m x v).b = s.b := rfl
@[simp] theorem State.stored_c (m : Stores) (x : Word) (v : Byte) : (s.stored m x v).c = s.c := rfl
@[simp] theorem State.stored_d (m : Stores) (x : Word) (v : Byte) : (s.stored m x v).d = s.d := rfl
@[simp] theorem State.stored_e (m : Stores) (x : Word) (v : Byte) : (s.stored m x v).e = s.e := rfl
@[simp] theorem State.stored_h (m : Stores) (x : Word) (v : Byte) : (s.stored m x v).h = s.h := rfl
@[simp] theorem State.stored_l (m : Stores) (x : Word) (v : Byte) : (s.stored m x v).l = s.l := rfl
@[simp] theorem State.stored_pc (m : Stores) (x : Word) (v : Byte) : (s.stored m x v).pc = s.pc := rfl
@[simp] theorem State.stored_sp (m : Stores) (x : Word) (v : Byte) : (s.stored m x v).sp = s.sp := rfl
@[simp] theorem State.stored_ime (m : Stores) (x : Word) (v : Byte) : (s.stored m x v).ime = s.ime := rfl
@[simp] theorem State.stored_imePending (m : Stores) (x : Word) (v : Byte) : (s.stored m x v).imePending = s.imePending := rfl
@[simp] theorem State.stored_mem (m : Stores) (x : Word) (v : Byte) : (s.stored m x v).mem = m := rfl
@[simp] theorem State.stored_bootMapped (m : Stores) (x : Word) (v : Byte) : (s.stored m x v).bootMapped = s.bootMapped := rfl
@[simp] theorem State.stored_ppu (m : Stores) (x : Word) (v : Byte) : (s.stored m x v).ppu = s.ppu := rfl
@[simp] theorem State.stored_fault (m : Stores) (x : Word) (v : Byte) : (s.stored m x v).fault = s.fault := rfl
@[simp] theorem State.stored_opCount (m : Stores) (x : Word) (v : Byte) : (s.stored m x v).opCount = s.opCount := rfl
@[simp] theorem State.stored_launch (m : Stores) (x : Word) (v : Byte) : (s.stored m x v).launch = s.launch := rfl
@[simp] theorem State.stored_hostPlan (m : Stores) (x : Word) (v : Byte) : (s.stored m x v).hostPlan = s.hostPlan := rfl
@[simp] theorem State.stored_out (m : Stores) (x : Word) (v : Byte) : (s.stored m x v).out = { s.out with writes := s.out.writes ++ [(x, v)] } := rfl

/-! ### `begin` -/

@[simp] theorem State.begin_a : (s.begin).a = s.a := rfl
@[simp] theorem State.begin_f : (s.begin).f = s.f := rfl
@[simp] theorem State.begin_b : (s.begin).b = s.b := rfl
@[simp] theorem State.begin_c : (s.begin).c = s.c := rfl
@[simp] theorem State.begin_d : (s.begin).d = s.d := rfl
@[simp] theorem State.begin_e : (s.begin).e = s.e := rfl
@[simp] theorem State.begin_h : (s.begin).h = s.h := rfl
@[simp] theorem State.begin_l : (s.begin).l = s.l := rfl
@[simp] theorem State.begin_pc : (s.begin).pc = s.pc := rfl
@[simp] theorem State.begin_sp : (s.begin).sp = s.sp := rfl
@[simp] theorem State.begin_ime : (s.begin).ime = s.ime := rfl
@[simp] theorem State.begin_imePending : (s.begin).imePending = s.imePending := rfl
@[simp] theorem State.begin_mem : (s.begin).mem = s.mem := rfl
@[simp] theorem State.begin_bootMapped : (s.begin).bootMapped = s.bootMapped := rfl
@[simp] theorem State.begin_ppu : (s.begin).ppu = s.ppu := rfl
@[simp] theorem State.begin_fault : (s.begin).fault = s.fault := rfl
@[simp] theorem State.begin_opCount : (s.begin).opCount = s.opCount := rfl
@[simp] theorem State.begin_launch : (s.begin).launch = s.launch := rfl
@[simp] theorem State.begin_hostPlan : (s.begin).hostPlan = s.hostPlan := rfl
@[simp] theorem State.begin_out : (s.begin).out = .empty := rfl

/-! ### `disableBoot` -/

@[simp] theorem State.disableBoot_a : (s.disableBoot).a = s.a := rfl
@[simp] theorem State.disableBoot_f : (s.disableBoot).f = s.f := rfl
@[simp] theorem State.disableBoot_b : (s.disableBoot).b = s.b := rfl
@[simp] theorem State.disableBoot_c : (s.disableBoot).c = s.c := rfl
@[simp] theorem State.disableBoot_d : (s.disableBoot).d = s.d := rfl
@[simp] theorem State.disableBoot_e : (s.disableBoot).e = s.e := rfl
@[simp] theorem State.disableBoot_h : (s.disableBoot).h = s.h := rfl
@[simp] theorem State.disableBoot_l : (s.disableBoot).l = s.l := rfl
@[simp] theorem State.disableBoot_pc : (s.disableBoot).pc = s.pc := rfl
@[simp] theorem State.disableBoot_sp : (s.disableBoot).sp = s.sp := rfl
@[simp] theorem State.disableBoot_ime : (s.disableBoot).ime = s.ime := rfl
@[simp] theorem State.disableBoot_imePending : (s.disableBoot).imePending = s.imePending := rfl
@[simp] theorem State.disableBoot_mem : (s.disableBoot).mem = s.mem := rfl
@[simp] theorem State.disableBoot_bootMapped : (s.disableBoot).bootMapped = false := rfl
@[simp] theorem State.disableBoot_ppu : (s.disableBoot).ppu = s.ppu := rfl
@[simp] theorem State.disableBoot_fault : (s.disableBoot).fault = s.fault := rfl
@[simp] theorem State.disableBoot_opCount : (s.disableBoot).opCount = s.opCount := rfl
@[simp] theorem State.disableBoot_launch : (s.disableBoot).launch = s.launch := rfl
@[simp] theorem State.disableBoot_hostPlan : (s.disableBoot).hostPlan = s.hostPlan := rfl
@[simp] theorem State.disableBoot_out : (s.disableBoot).out = s.out := rfl

/-! ### `writeInput` -/

@[simp] theorem State.writeInput_a (v : Byte) : (s.writeInput v).a = s.a := rfl
@[simp] theorem State.writeInput_f (v : Byte) : (s.writeInput v).f = s.f := rfl
@[simp] theorem State.writeInput_b (v : Byte) : (s.writeInput v).b = s.b := rfl
@[simp] theorem State.writeInput_c (v : Byte) : (s.writeInput v).c = s.c := rfl
@[simp] theorem State.writeInput_d (v : Byte) : (s.writeInput v).d = s.d := rfl
@[simp] theorem State.writeInput_e (v : Byte) : (s.writeInput v).e = s.e := rfl
@[simp] theorem State.writeInput_h (v : Byte) : (s.writeInput v).h = s.h := rfl
@[simp] theorem State.writeInput_l (v : Byte) : (s.writeInput v).l = s.l := rfl
@[simp] theorem State.writeInput_pc (v : Byte) : (s.writeInput v).pc = s.pc := rfl
@[simp] theorem State.writeInput_sp (v : Byte) : (s.writeInput v).sp = s.sp := rfl
@[simp] theorem State.writeInput_ime (v : Byte) : (s.writeInput v).ime = s.ime := rfl
@[simp] theorem State.writeInput_imePending (v : Byte) : (s.writeInput v).imePending = s.imePending := rfl
@[simp] theorem State.writeInput_mem (v : Byte) : (s.writeInput v).mem = { s.mem with input := v } := rfl
@[simp] theorem State.writeInput_bootMapped (v : Byte) : (s.writeInput v).bootMapped = s.bootMapped := rfl
@[simp] theorem State.writeInput_ppu (v : Byte) : (s.writeInput v).ppu = s.ppu := rfl
@[simp] theorem State.writeInput_fault (v : Byte) : (s.writeInput v).fault = s.fault := rfl
@[simp] theorem State.writeInput_opCount (v : Byte) : (s.writeInput v).opCount = s.opCount := rfl
@[simp] theorem State.writeInput_launch (v : Byte) : (s.writeInput v).launch = s.launch := rfl
@[simp] theorem State.writeInput_hostPlan (v : Byte) : (s.writeInput v).hostPlan = s.hostPlan := rfl
@[simp] theorem State.writeInput_out (v : Byte) : (s.writeInput v).out = s.out := rfl

/-! ### `setReg` -/

@[simp] theorem State.setReg_a (r : Reg) (v : Byte) :
    (s.setReg r v).a = if r = .a then v else s.a := by cases r <;> rfl
@[simp] theorem State.setReg_f (r : Reg) (v : Byte) :
    (s.setReg r v).f = if r = .f then v &&& 0xF0 else s.f := by cases r <;> rfl
@[simp] theorem State.setReg_b (r : Reg) (v : Byte) :
    (s.setReg r v).b = if r = .b then v else s.b := by cases r <;> rfl
@[simp] theorem State.setReg_c (r : Reg) (v : Byte) :
    (s.setReg r v).c = if r = .c then v else s.c := by cases r <;> rfl
@[simp] theorem State.setReg_d (r : Reg) (v : Byte) :
    (s.setReg r v).d = if r = .d then v else s.d := by cases r <;> rfl
@[simp] theorem State.setReg_e (r : Reg) (v : Byte) :
    (s.setReg r v).e = if r = .e then v else s.e := by cases r <;> rfl
@[simp] theorem State.setReg_h (r : Reg) (v : Byte) :
    (s.setReg r v).h = if r = .h then v else s.h := by cases r <;> rfl
@[simp] theorem State.setReg_l (r : Reg) (v : Byte) :
    (s.setReg r v).l = if r = .l then v else s.l := by cases r <;> rfl
@[simp] theorem State.setReg_pc (r : Reg) (v : Byte) : (s.setReg r v).pc = s.pc := by
  cases r <;> rfl
@[simp] theorem State.setReg_sp (r : Reg) (v : Byte) : (s.setReg r v).sp = s.sp := by
  cases r <;> rfl
@[simp] theorem State.setReg_ime (r : Reg) (v : Byte) : (s.setReg r v).ime = s.ime := by
  cases r <;> rfl
@[simp] theorem State.setReg_imePending (r : Reg) (v : Byte) : (s.setReg r v).imePending = s.imePending := by
  cases r <;> rfl
@[simp] theorem State.setReg_mem (r : Reg) (v : Byte) : (s.setReg r v).mem = s.mem := by
  cases r <;> rfl
@[simp] theorem State.setReg_bootMapped (r : Reg) (v : Byte) : (s.setReg r v).bootMapped = s.bootMapped := by
  cases r <;> rfl
@[simp] theorem State.setReg_ppu (r : Reg) (v : Byte) : (s.setReg r v).ppu = s.ppu := by
  cases r <;> rfl
@[simp] theorem State.setReg_fault (r : Reg) (v : Byte) : (s.setReg r v).fault = s.fault := by
  cases r <;> rfl
@[simp] theorem State.setReg_opCount (r : Reg) (v : Byte) : (s.setReg r v).opCount = s.opCount := by
  cases r <;> rfl
@[simp] theorem State.setReg_launch (r : Reg) (v : Byte) : (s.setReg r v).launch = s.launch := by
  cases r <;> rfl
@[simp] theorem State.setReg_hostPlan (r : Reg) (v : Byte) : (s.setReg r v).hostPlan = s.hostPlan := by
  cases r <;> rfl
@[simp] theorem State.setReg_out (r : Reg) (v : Byte) : (s.setReg r v).out = s.out := by
  cases r <;> rfl

/-! ### `setPairSp` -/

@[simp] theorem State.setPairSp_a (rr : PairSp) (w : Word) :
    (s.setPairSp rr w).a = s.a := by cases rr <;> rfl
@[simp] theorem State.setPairSp_f (rr : PairSp) (w : Word) :
    (s.setPairSp rr w).f = s.f := by cases rr <;> rfl
@[simp] theorem State.setPairSp_pc (rr : PairSp) (w : Word) :
    (s.setPairSp rr w).pc = s.pc := by cases rr <;> rfl
@[simp] theorem State.setPairSp_ime (rr : PairSp) (w : Word) :
    (s.setPairSp rr w).ime = s.ime := by cases rr <;> rfl
@[simp] theorem State.setPairSp_imePending (rr : PairSp) (w : Word) :
    (s.setPairSp rr w).imePending = s.imePending := by cases rr <;> rfl
@[simp] theorem State.setPairSp_mem (rr : PairSp) (w : Word) :
    (s.setPairSp rr w).mem = s.mem := by cases rr <;> rfl
@[simp] theorem State.setPairSp_bootMapped (rr : PairSp) (w : Word) :
    (s.setPairSp rr w).bootMapped = s.bootMapped := by cases rr <;> rfl
@[simp] theorem State.setPairSp_ppu (rr : PairSp) (w : Word) :
    (s.setPairSp rr w).ppu = s.ppu := by cases rr <;> rfl
@[simp] theorem State.setPairSp_fault (rr : PairSp) (w : Word) :
    (s.setPairSp rr w).fault = s.fault := by cases rr <;> rfl
@[simp] theorem State.setPairSp_opCount (rr : PairSp) (w : Word) :
    (s.setPairSp rr w).opCount = s.opCount := by cases rr <;> rfl
@[simp] theorem State.setPairSp_launch (rr : PairSp) (w : Word) :
    (s.setPairSp rr w).launch = s.launch := by cases rr <;> rfl
@[simp] theorem State.setPairSp_hostPlan (rr : PairSp) (w : Word) :
    (s.setPairSp rr w).hostPlan = s.hostPlan := by cases rr <;> rfl
@[simp] theorem State.setPairSp_out (rr : PairSp) (w : Word) :
    (s.setPairSp rr w).out = s.out := by cases rr <;> rfl

/-! ### `setPairAf` -/

@[simp] theorem State.setPairAf_pc (rr : PairAf) (w : Word) :
    (s.setPairAf rr w).pc = s.pc := by cases rr <;> rfl
@[simp] theorem State.setPairAf_sp (rr : PairAf) (w : Word) :
    (s.setPairAf rr w).sp = s.sp := by cases rr <;> rfl
@[simp] theorem State.setPairAf_ime (rr : PairAf) (w : Word) :
    (s.setPairAf rr w).ime = s.ime := by cases rr <;> rfl
@[simp] theorem State.setPairAf_imePending (rr : PairAf) (w : Word) :
    (s.setPairAf rr w).imePending = s.imePending := by cases rr <;> rfl
@[simp] theorem State.setPairAf_mem (rr : PairAf) (w : Word) :
    (s.setPairAf rr w).mem = s.mem := by cases rr <;> rfl
@[simp] theorem State.setPairAf_bootMapped (rr : PairAf) (w : Word) :
    (s.setPairAf rr w).bootMapped = s.bootMapped := by cases rr <;> rfl
@[simp] theorem State.setPairAf_ppu (rr : PairAf) (w : Word) :
    (s.setPairAf rr w).ppu = s.ppu := by cases rr <;> rfl
@[simp] theorem State.setPairAf_fault (rr : PairAf) (w : Word) :
    (s.setPairAf rr w).fault = s.fault := by cases rr <;> rfl
@[simp] theorem State.setPairAf_opCount (rr : PairAf) (w : Word) :
    (s.setPairAf rr w).opCount = s.opCount := by cases rr <;> rfl
@[simp] theorem State.setPairAf_launch (rr : PairAf) (w : Word) :
    (s.setPairAf rr w).launch = s.launch := by cases rr <;> rfl
@[simp] theorem State.setPairAf_hostPlan (rr : PairAf) (w : Word) :
    (s.setPairAf rr w).hostPlan = s.hostPlan := by cases rr <;> rfl
@[simp] theorem State.setPairAf_out (rr : PairAf) (w : Word) :
    (s.setPairAf rr w).out = s.out := by cases rr <;> rfl

/-! ### Bytes and the decoder under updates outside the bus -/

/-- The decoder reads only the boot mapping and the cartridge length. -/
theorem State.route_congr {s t : State} (hb : t.bootMapped = s.bootMapped) (hl : t.launch = s.launch)
    (a : Word) : t.route a = s.route a := by
  simp only [State.route, hb, hl]

/-- A read depends on the decoder, the stores and the launch images only. -/
theorem State.busRead_congr {s t : State} (hb : t.bootMapped = s.bootMapped)
    (hl : t.launch = s.launch) (hm : t.mem = s.mem) (a : Word) : t.busRead a = s.busRead a := by
  simp only [State.busRead, State.route_congr hb hl, State.cell, hm, hl]

@[simp] theorem State.setBc_busRead (w : Word) (x : Word) : (s.setBc w).busRead x = s.busRead x := rfl
@[simp] theorem State.setBc_route (w : Word) (x : Word) : (s.setBc w).route x = s.route x := rfl
@[simp] theorem State.setDe_busRead (w : Word) (x : Word) : (s.setDe w).busRead x = s.busRead x := rfl
@[simp] theorem State.setDe_route (w : Word) (x : Word) : (s.setDe w).route x = s.route x := rfl
@[simp] theorem State.setHl_busRead (w : Word) (x : Word) : (s.setHl w).busRead x = s.busRead x := rfl
@[simp] theorem State.setHl_route (w : Word) (x : Word) : (s.setHl w).route x = s.route x := rfl
@[simp] theorem State.setAf_busRead (w : Word) (x : Word) : (s.setAf w).busRead x = s.busRead x := rfl
@[simp] theorem State.setAf_route (w : Word) (x : Word) : (s.setAf w).route x = s.route x := rfl
@[simp] theorem State.setSp_busRead (w : Word) (x : Word) : (s.setSp w).busRead x = s.busRead x := rfl
@[simp] theorem State.setSp_route (w : Word) (x : Word) : (s.setSp w).route x = s.route x := rfl
@[simp] theorem State.setPc_busRead (w : Word) (x : Word) : (s.setPc w).busRead x = s.busRead x := rfl
@[simp] theorem State.setPc_route (w : Word) (x : Word) : (s.setPc w).route x = s.route x := rfl
@[simp] theorem State.bumpPc_busRead (k : Word) (x : Word) : (s.bumpPc k).busRead x = s.busRead x := rfl
@[simp] theorem State.bumpPc_route (k : Word) (x : Word) : (s.bumpPc k).route x = s.route x := rfl
@[simp] theorem State.setFlags_busRead (fl : Flags) (x : Word) : (s.setFlags fl).busRead x = s.busRead x := rfl
@[simp] theorem State.setFlags_route (fl : Flags) (x : Word) : (s.setFlags fl).route x = s.route x := rfl
@[simp] theorem State.raise_busRead (k : FaultKind) (x : Word) : (s.raise k).busRead x = s.busRead x := rfl
@[simp] theorem State.raise_route (k : FaultKind) (x : Word) : (s.raise k).route x = s.route x := rfl
@[simp] theorem State.setMasterEnable_busRead (on : Bool) (x : Word) : (s.setMasterEnable on).busRead x = s.busRead x := rfl
@[simp] theorem State.setMasterEnable_route (on : Bool) (x : Word) : (s.setMasterEnable on).route x = s.route x := rfl
@[simp] theorem State.begin_busRead (x : Word) : (s.begin).busRead x = s.busRead x := rfl
@[simp] theorem State.begin_route (x : Word) : (s.begin).route x = s.route x := rfl
@[simp] theorem State.stored_route (m : Stores) (x : Word) (v : Byte) (y : Word) :
    (s.stored m x v).route y = s.route y := rfl
@[simp] theorem State.setReg_busRead (r : Reg) (v : Byte) (x : Word) :
    (s.setReg r v).busRead x = s.busRead x := by cases r <;> rfl
@[simp] theorem State.setReg_route (r : Reg) (v : Byte) (x : Word) :
    (s.setReg r v).route x = s.route x := by cases r <;> rfl
@[simp] theorem State.setPairSp_busRead (rr : PairSp) (w : Word) (x : Word) :
    (s.setPairSp rr w).busRead x = s.busRead x := by cases rr <;> rfl
@[simp] theorem State.setPairSp_route (rr : PairSp) (w : Word) (x : Word) :
    (s.setPairSp rr w).route x = s.route x := by cases rr <;> rfl
@[simp] theorem State.setPairAf_busRead (rr : PairAf) (w : Word) (x : Word) :
    (s.setPairAf rr w).busRead x = s.busRead x := by cases rr <;> rfl
@[simp] theorem State.setPairAf_route (rr : PairAf) (w : Word) (x : Word) :
    (s.setPairAf rr w).route x = s.route x := by cases rr <;> rfl

/-! ### Reading back a register, a pair and the flags -/

/-- A register reads as it was written, but that `f` keeps only its high nibble. -/
theorem State.reg_setReg (r q : Reg) (v : Byte) :
    (s.setReg r v).reg q = if q = r then (if r = .f then v &&& 0xF0 else v) else s.reg q := by
  cases r <;> cases q <;> rfl

/-- A concatenation as an integer (00_scope.md R8). -/
theorem toNat_cat (x y : Byte) : (cat x y).toNat = x.toNat * 256 + y.toNat := by
  have h := Nat.shiftLeft_add_eq_or_of_lt (i := 8) y.isLt x.toNat
  simp only [cat, BitVec.toNat_append]
  omega

/-- The high byte as an integer (00_scope.md R8). -/
theorem toNat_hi8 (w : Word) : (hi8 w).toNat = w.toNat / 256 := by
  have := w.isLt
  simp only [hi8, BitVec.extractLsb'_toNat, Nat.shiftRight_eq_div_pow]
  omega

/-- The low byte as an integer (00_scope.md R8). -/
theorem toNat_lo8 (w : Word) : (lo8 w).toNat = w.toNat % 256 := by
  simp [lo8]

@[simp] theorem hi8_cat (x y : Byte) : hi8 (cat x y) = x := by
  apply BitVec.eq_of_toNat_eq
  have := y.isLt
  rw [toNat_hi8, toNat_cat]; omega

@[simp] theorem lo8_cat (x y : Byte) : lo8 (cat x y) = y := by
  apply BitVec.eq_of_toNat_eq
  have := y.isLt
  rw [toNat_lo8, toNat_cat]; omega

@[simp] theorem cat_hi8_lo8 (w : Word) : cat (hi8 w) (lo8 w) = w := by
  apply BitVec.eq_of_toNat_eq
  rw [toNat_cat, toNat_hi8, toNat_lo8]; omega

@[simp] theorem State.setBc_bc (w : Word) : (s.setBc w).bc = w := by simp [State.bc]
@[simp] theorem State.setDe_de (w : Word) : (s.setDe w).de = w := by simp [State.de]
@[simp] theorem State.setHl_hl (w : Word) : (s.setHl w).hl = w := by simp [State.hl]

/-- Packed flags unpack to themselves (10_state.md R12). -/
@[simp] theorem State.setFlags_flags (fl : Flags) : (s.setFlags fl).flags = fl := by
  obtain ⟨z, n, h, c⟩ := fl
  simp only [State.flags, State.setFlags]
  cases z <;> cases n <;> cases h <;> cases c <;> decide

/-- The low nibble of packed flags is zero (10_state.md R12). -/
@[simp] theorem Flags.pack_low (fl : Flags) : fl.pack &&& 0x0F#8 = 0#8 := by
  obtain ⟨z, n, h, c⟩ := fl
  cases z <;> cases n <;> cases h <;> cases c <;> rfl

/-- A masked byte has a zero low nibble (10_state.md R12). -/
@[simp] theorem mask_low (v : Byte) : v &&& 0xF0#8 &&& 0x0F#8 = 0#8 := by
  rw [BitVec.and_assoc]; simp

end Sys2Proof.Machine
end

