-- ==== Sys2Proof/Laws/Bus.lean ====
section
/-! SUPPORT. The laws of the bus: which addresses it answers, read after write through the decoder, and
that a write changes one cell and keeps the stores well formed. -/

namespace Sys2Proof.Machine

/-! ### Cells -/

theorem Stores.get_put_same {m m' : Stores} {r : Route} {v : Byte} (h : m.put r v = some m') :
    m'.get r = some v := by
  cases r <;> simp only [Stores.put, Option.some.injEq, reduceCtorEq] at h <;> subst h <;>
    simp [Stores.get]

theorem Stores.get_put_ne {m m' : Stores} {r q : Route} {v : Byte} (h : m.put r v = some m')
    (hne : q ≠ r) : m'.get q = m.get q := by
  cases r <;> simp only [Stores.put, Option.some.injEq, reduceCtorEq] at h <;> subst h <;>
    cases q <;> simp_all [Stores.get, Memory.read_write]

/-- The offsets the decoder yields exist in their store (10_state.md R21). -/
def Route.exists (r : Route) : Prop :=
  match r with
  | .vram o | .eram o | .wram o => o < Config.ramSize
  | .io o | .hram o => o < Config.pageSize
  | .bootRom o => o < Config.bootSize
  | .cartRom o => o < Config.cartMax
  | .input | .ie | .unmapped => True

theorem State.route_exists (s : State) (a : Word) : (s.route a).exists := by
  have := a.isLt
  simp only [State.route]
  repeat' split
  all_goals simp only [Route.exists, Config.ramSize, Config.pageSize, Config.bootSize, Config.cartMax]
  all_goals omega

/-- A write to a cell that exists keeps the stores well formed. -/
theorem Stores.wf_put {m m' : Stores} {r : Route} {v : Byte} (h : m.put r v = some m')
    (hr : r.exists) (hm : m.wf = true) : m'.wf = true := by
  simp only [Stores.wf, Bool.and_eq_true] at hm ⊢
  cases r <;> simp only [Stores.put, Option.some.injEq, reduceCtorEq] at h <;> subst h <;>
    simp only [Route.exists] at hr <;>
    simp_all [Memory.wf_write, Memory.within_write]

/-! ### Reading and writing an address -/

/-- A write either stores one byte and records it, or is fatal (20_memory.md R36). -/
theorem State.busWrite_eq_some {s t : State} {a : Word} {v : Byte} (h : s.busWrite a v = some t) :
    ∃ m, s.mem.put (s.route a) v = some m ∧ t = s.stored m a v := by
  simp only [State.busWrite] at h
  split at h
  · next m hm => exact ⟨m, hm, by simpa using h.symm⟩
  · simp at h

/-- A write keeps the decoder as it is. -/
theorem State.busWrite_route {s t : State} {a : Word} {v : Byte} (h : s.busWrite a v = some t)
    (x : Word) : t.route x = s.route x := by
  obtain ⟨m, -, rfl⟩ := State.busWrite_eq_some h; rfl

theorem Stores.put_isSome_cell {m : Stores} {r : Route} {v : Byte} {m' : Stores}
    (h : m.put r v = some m') (s : State) (hs : s.mem = m') : s.cell r = m'.get r := by
  cases r <;> simp_all [Stores.put, State.cell]

/-- A read after a write to the same cell returns the written byte (20_memory.md R41). -/
theorem State.busRead_busWrite_same {s t : State} {a b : Word} {v : Byte}
    (h : s.busWrite a v = some t) (hab : s.route b = s.route a) : t.busRead b = some v := by
  obtain ⟨m, hm, rfl⟩ := State.busWrite_eq_some h
  rw [State.busRead, State.stored_route, hab, Stores.put_isSome_cell hm _ rfl,
    Stores.get_put_same hm]

/-- A write leaves every other cell alone (20_memory.md R36). -/
theorem State.busRead_busWrite_ne {s t : State} {a b : Word} {v : Byte}
    (h : s.busWrite a v = some t) (hab : s.route b ≠ s.route a) : t.busRead b = s.busRead b := by
  obtain ⟨m, hm, rfl⟩ := State.busWrite_eq_some h
  have key := Stores.get_put_ne hm hab
  rw [State.busRead, State.busRead, State.stored_route]
  revert key
  cases s.route b <;> simp [State.cell]

/-- A write keeps the stores well formed. -/
theorem State.busWrite_wf {s t : State} {a : Word} {v : Byte} (h : s.busWrite a v = some t)
    (hm : s.mem.wf = true) : t.mem.wf = true := by
  obtain ⟨m, hput, rfl⟩ := State.busWrite_eq_some h
  exact Stores.wf_put hput (s.route_exists a) hm

/-! ### Which addresses the bus answers -/

/-- The cells a bus write can store to (20_memory.md R36). -/
def Route.isRam (r : Route) : Bool :=
  match r with
  | .vram _ | .eram _ | .wram _ | .input | .io _ | .hram _ | .ie => true
  | .bootRom _ | .cartRom _ | .unmapped => false

theorem State.route_isRam (s : State) (a : Word) : (s.route a).isRam = writable a := by
  have := a.isLt
  rw [Bool.eq_iff_iff]
  simp only [State.route, writable]
  repeat' split
  all_goals simp only [Route.isRam, Bool.and_eq_true, decide_eq_true_eq,
    Bool.not_eq_true', Bool.and_eq_false_iff, decide_eq_false_iff_not, true_iff,
    Bool.false_eq_true, false_iff]
  all_goals omega

/-- A write is fatal exactly at an address that is not writable (20_memory.md R36, R37). -/
theorem State.busWrite_isSome (s : State) (a : Word) (v : Byte) :
    (s.busWrite a v).isSome = writable a := by
  rw [← s.route_isRam a, State.busWrite]
  cases s.route a <;> rfl

theorem State.route_ne_unmapped (s : State) (a : Word) :
    (s.route a ≠ .unmapped) ↔ s.readable a = true := by
  have := a.isLt
  cases hb : s.bootMapped <;>
  simp only [State.route, State.readable, writable, hb, Bool.and_true, Bool.and_false,
    Bool.false_eq_true, and_true, and_false, if_false, Bool.false_or] <;>
  repeat' split
  all_goals simp only [ne_eq, reduceCtorEq, not_true_eq_false, not_false_eq_true, Bool.or_eq_true,
    Bool.and_eq_true, decide_eq_true_eq, Bool.not_eq_true', Bool.and_eq_false_iff,
    decide_eq_false_iff_not, true_iff, false_iff]
  all_goals omega

/-- A read is fatal exactly at an address that is not readable (20_memory.md R35, R37, R38). -/
theorem State.busRead_isSome (s : State) (a : Word) :
    (s.busRead a).isSome = s.readable a := by
  rw [Bool.eq_iff_iff, ← s.route_ne_unmapped a, State.busRead]
  cases s.route a <;> simp [State.cell, Stores.get]

theorem State.busWrite_of_writable (s : State) {a : Word} (v : Byte) (h : writable a = true) :
    ∃ t, s.busWrite a v = some t :=
  Option.isSome_iff_exists.mp (by rw [State.busWrite_isSome, h])

theorem State.busRead_of_readable (s : State) {a : Word} (h : s.readable a = true) :
    ∃ v, s.busRead a = some v :=
  Option.isSome_iff_exists.mp (by rw [State.busRead_isSome, h])

/-- The interrupt-enable cell is the byte at 0xFFFF (20_memory.md R34). -/
theorem State.busRead_ie (s : State) : s.busRead Config.ieAddr = some s.ieByte := by
  simp [State.busRead, State.route, Config.ieAddr, State.cell, Stores.get, State.ieByte]

/-- The interrupt-flag cell is the byte at 0xFF0F (20_memory.md R34). -/
theorem State.busRead_if (s : State) : s.busRead Config.ifAddr = some s.ifByte := by
  simp [State.busRead, State.route, Config.ifAddr, State.cell, Stores.get, State.ifByte]

/-- The display-control cell is the byte at 0xFF40 (20_memory.md R50). -/
theorem State.busRead_lcdc (s : State) : s.busRead Config.lcdcAddr = some s.lcdc := by
  simp [State.busRead, State.route, Config.lcdcAddr, State.cell, Stores.get, State.lcdc]

/-- The lowest bus address of a writable cell (20_memory.md R31). -/
def Route.lowest (r : Route) : Nat :=
  match r with
  | .vram o => 0x8000 + o | .eram o => 0xA000 + o | .wram o => 0xC000 + o
  | .input => 0xFF00 | .io o => 0xFF01 + o | .hram o => 0xFF80 + o | .ie => 0xFFFF
  | .bootRom o | .cartRom o => o | .unmapped => 0

/-- A writable address is the lowest of its cell, but in the echo range (20_memory.md R33). -/
theorem State.route_lowest (s : State) (a : Word) (h : writable a = true) :
    (s.route a).lowest = if 0xE000 ≤ a.toNat ∧ a.toNat ≤ 0xFDFF then a.toNat - 0x2000 else a.toNat := by
  have ha := a.isLt
  simp only [writable, Bool.and_eq_true, decide_eq_true_eq, Bool.not_eq_true',
    Bool.and_eq_false_iff, decide_eq_false_iff_not] at h
  simp only [State.route]
  repeat' split
  all_goals simp only [Route.lowest]
  all_goals omega

/-- Two neighbouring addresses are never one cell (20_memory.md R32). -/
theorem State.route_pred_ne (s : State) (a : Word) (h : writable a = true) :
    s.route (a - 1) ≠ s.route a := by
  intro heq
  have hw : writable (a - 1) = true := by
    rw [← s.route_isRam, heq, s.route_isRam, h]
  have hlow := congrArg Route.lowest heq
  rw [s.route_lowest a h, s.route_lowest (a - 1) hw] at hlow
  have ha := a.isLt
  simp only [writable, Bool.and_eq_true, decide_eq_true_eq, Bool.not_eq_true',
    Bool.and_eq_false_iff, decide_eq_false_iff_not] at h
  have hp : (a - 1).toNat = a.toNat - 1 := by
    rw [BitVec.toNat_sub]; simp; omega
  rw [hp] at hlow
  split at hlow <;> split at hlow <;> omega

end Sys2Proof.Machine
end

