-- ==== Sys2Proof/Laws/Decode.lean ====
section
/-! SUPPORT. What the decoder does with the bytes of a key: it takes the operand bytes of the one row the
key selects. -/

namespace Sys2Proof

/-- Decoding the bytes of a key that a fetch can form is completing the form of its row
(30_encoding.md R60, R76). -/
theorem decode_key_bytes (k : Key) (bs : List Byte) (hk : k.prefixed = true ∨ k.opcode ≠ Config.prefixByte) :
    decode (k.bytes ++ bs) = decodeKey k bs := by
  obtain ⟨p, op⟩ := k
  cases p
  · have hop : op ≠ Config.prefixByte := by simpa using hk
    simp [Key.bytes, decode, hop]
  · simp [Key.bytes, decode]

/-- An instruction decodes from its encoding when its row completes to it. -/
theorem decode_encode_of_row {i : Instr} {row : Row} (rest : List Byte)
    (hk : i.key.prefixed = true ∨ i.key.opcode ≠ Config.prefixByte) (hrow : rowOf i.key = some row)
    (hform : (row.form i.key.opcode).complete (i.operandBytes ++ rest) = .ok (i, rest)) :
    decode (encode i ++ rest) = .ok (i, rest) := by
  rw [encode, List.append_assoc, decode_key_bytes _ _ hk, decodeKey, hrow]
  exact hform

end Sys2Proof
end

