-- ==== Sys2Proof/Laws/Ops.lean ====
section
/-! SUPPORT. One lemma per shared operation that says everything it can do. `…_of_…` rewrites the
operation where its accesses succeed, `…_eq_next` inverts it, and `…_ensures` carries a property of
the resulting state through it, for invariants and frames. -/

namespace Sys2Proof.Machine

/-- Whatever next state the result answers has the property. -/
def Ensures (P : State → Prop) (r : Result) : Prop := ∀ t, r = .next t → P t

@[simp] theorem ensures_next (P : State → Prop) (t : State) : Ensures P (.next t) ↔ P t := by
  simp [Ensures]

@[simp] theorem ensures_fault (P : State → Prop) (f : Fault) : Ensures P (.fault f) := by
  simp [Ensures]

@[simp] theorem ensures_refused (P : State → Prop) (f : Refusal) : Ensures P (.refused f) := by
  simp [Ensures]

variable {s t : State} {P : State → Prop}

/-! ### One bus access -/

theorem readThen_of_read {a : Word} {v : Byte} (h : s.busRead a = some v) (k : Byte → Result) :
    readThen s a k = k v := by simp [readThen, h]

theorem readThen_of_unmapped {a : Word} (h : s.busRead a = none) (k : Byte → Result) :
    readThen s a k = .next (s.raise (.unmappedAddress a)) := by simp [readThen, h]

theorem readThen_eq_next {a : Word} {k : Byte → Result} :
    readThen s a k = .next t ↔ (∃ v, s.busRead a = some v ∧ k v = .next t) ∨
      (s.busRead a = none ∧ t = s.raise (.unmappedAddress a)) := by
  cases h : s.busRead a <;> simp [readThen, h, eq_comm]

theorem readThen_ensures {a : Word} {k : Byte → Result} (hr : P (s.raise (.unmappedAddress a)))
    (hk : ∀ v, s.busRead a = some v → Ensures P (k v)) : Ensures P (readThen s a k) := by
  cases h : s.busRead a with
  | none => simpa [readThen, h] using hr
  | some v => simpa [readThen, h] using hk v h

theorem writeThen_of_write {a : Word} {v : Byte} (h : s.busWrite a v = some t) (k : State → Result) :
    writeThen s a v k = k t := by simp [writeThen, h]

theorem writeThen_of_fatal {a : Word} {v : Byte} (h : s.busWrite a v = none) (k : State → Result) :
    writeThen s a v k = .next (s.raise (.unmappedAddress a)) := by simp [writeThen, h]

theorem writeThen_eq_next {a : Word} {v : Byte} {k : State → Result} :
    writeThen s a v k = .next t ↔ (∃ u, s.busWrite a v = some u ∧ k u = .next t) ∨
      (s.busWrite a v = none ∧ t = s.raise (.unmappedAddress a)) := by
  cases h : s.busWrite a v <;> simp [writeThen, h, eq_comm]

theorem writeThen_ensures {a : Word} {v : Byte} {k : State → Result}
    (hr : P (s.raise (.unmappedAddress a)))
    (hk : ∀ u, s.busWrite a v = some u → Ensures P (k u)) : Ensures P (writeThen s a v k) := by
  cases h : s.busWrite a v with
  | none => simpa [writeThen, h] using hr
  | some u => simpa [writeThen, h] using hk u h

/-! ### The stack -/

theorem push16Then_ensures {w : Word} {k : State → Result}
    (h₁ : P ((s.setSp (s.sp - 1)).raise (.unmappedAddress (s.sp - 1))))
    (h₂ : ∀ u, (s.setSp (s.sp - 1)).busWrite (s.sp - 1) (hi8 w) = some u →
      P ((u.setSp (u.sp - 1)).raise (.unmappedAddress (u.sp - 1))))
    (hk : ∀ u u', (s.setSp (s.sp - 1)).busWrite (s.sp - 1) (hi8 w) = some u →
      (u.setSp (u.sp - 1)).busWrite (u.sp - 1) (lo8 w) = some u' → Ensures P (k u')) :
    Ensures P (push16Then w s k) :=
  writeThen_ensures h₁ fun u hu => writeThen_ensures (h₂ u hu) fun u' hu' => hk u u' hu hu'

/-- A push whose two addresses are writable (40_source_named.md R86): the high byte stands at `sp - 1`,
the low byte at `sp - 2`, `sp` has moved by 2, and nothing else differs but the record of the writes. -/
theorem push16Then_of_writable (w : Word) (k : State → Result)
    (h₁ : writable (s.sp - 1) = true) (h₂ : writable (s.sp - 2) = true) :
    ∃ u, push16Then w s k = k u ∧ u.busRead (s.sp - 1) = some (hi8 w) ∧
      u.busRead (s.sp - 2) = some (lo8 w) ∧ s.SameBytesOutside u [s.sp - 1, s.sp - 2] ∧
      u = { s with sp := s.sp - 2, mem := u.mem,
                   out := { s.out with writes :=
                     s.out.writes ++ [(s.sp - 1, hi8 w), (s.sp - 2, lo8 w)] } } := by
  have hsp : s.sp - 1 - 1 = s.sp - 2 := by
    rw [BitVec.sub_sub]; rfl
  obtain ⟨u, hu⟩ := (s.setSp (s.sp - 1)).busWrite_of_writable (hi8 w) h₁
  obtain ⟨m, hm, rfl⟩ := State.busWrite_eq_some hu
  set u := (s.setSp (s.sp - 1)).stored m (s.sp - 1) (hi8 w) with hudef
  have husp : u.sp - 1 = s.sp - 2 := hsp
  obtain ⟨v, hv⟩ := (u.setSp (s.sp - 2)).busWrite_of_writable (lo8 w) h₂
  obtain ⟨m', hm', rfl⟩ := State.busWrite_eq_some hv
  have hne : s.route (s.sp - 1) ≠ s.route (s.sp - 2) := by
    rw [← hsp]; exact (s.route_pred_ne _ h₁).symm
  refine ⟨_, ?_, ?_, State.busRead_busWrite_same hv rfl, ?_, ?_⟩
  · rw [push16Then, writeThen_of_write hu, husp, writeThen_of_write hv]
  · rw [State.busRead_busWrite_ne hv hne, State.setSp_busRead]
    exact State.busRead_busWrite_same hu rfl
  · intro a ha
    simp only [List.mem_cons, List.not_mem_nil, or_false, forall_eq_or_imp, forall_eq] at ha
    rw [State.busRead_busWrite_ne hv ha.2, State.setSp_busRead]
    exact (State.busRead_busWrite_ne hu ha.1).trans (State.setSp_busRead s _ a)
  · simp [hudef, State.stored, State.setSp]

theorem pop16Then_ensures {k : Word → State → Result}
    (h₁ : P (s.raise (.unmappedAddress s.sp)))
    (h₂ : P ((s.setSp (s.sp + 1)).raise (.unmappedAddress (s.sp + 1))))
    (hk : ∀ lo hi, s.busRead s.sp = some lo → s.busRead (s.sp + 1) = some hi →
      Ensures P (k (cat hi lo) (s.setSp (s.sp + 2)))) : Ensures P (pop16Then s k) := by
  refine readThen_ensures h₁ fun lo hlo => readThen_ensures h₂ fun hi hhi => ?_
  have hsp : s.sp + 1 + 1 = s.sp + 2 := by rw [BitVec.add_assoc]; rfl
  have := hk lo hi hlo hhi
  rw [← hsp] at this
  exact this

/-- A pop whose two bytes are read (40_source_named.md R87): the low byte first, `sp` moved by 2. -/
theorem pop16Then_of_read {lo hi : Byte} (k : Word → State → Result)
    (h₁ : s.busRead s.sp = some lo) (h₂ : s.busRead (s.sp + 1) = some hi) :
    pop16Then s k = k (cat hi lo) (s.setSp (s.sp + 2)) := by
  have hsp : s.sp + 1 + 1 = s.sp + 2 := by rw [BitVec.add_assoc]; rfl
  have h₂' : (s.setSp (s.sp + 1)).busRead (s.sp + 1) = some hi := by simpa using h₂
  simp only [pop16Then]
  rw [readThen_of_read h₁]
  simp only [State.setSp_sp]
  rw [readThen_of_read h₂', hsp]
  rfl

/-! ### The 8-bit operand -/

theorem readR8Then_of_read {r : R8} {v : Byte} (h : s.r8 r = some v) (k : Byte → Result) :
    readR8Then r s k = k v := by
  cases r <;> simp_all [State.r8, readR8Then, readThen]

theorem readR8Then_ensures {r : R8} {k : Byte → Result}
    (hr : r = .mhl → P (s.raise (.unmappedAddress s.hl)))
    (hk : ∀ v, s.r8 r = some v → Ensures P (k v)) : Ensures P (readR8Then r s k) := by
  cases r
  case mhl => exact readThen_ensures (hr rfl) hk
  all_goals exact hk _ rfl

theorem writeR8Then_ensures {r : R8} {v : Byte} {k : State → Result}
    (hr : r = .mhl → P (s.raise (.unmappedAddress s.hl)))
    (hreg : ∀ q, R8dests r = [q] → Ensures P (k (s.setReg q v)))
    (hmem : ∀ u, r = .mhl → s.busWrite s.hl v = some u → Ensures P (k u)) :
    Ensures P (writeR8Then r v s k) := by
  cases r
  case mhl => exact writeThen_ensures (hr rfl) fun u hu => hmem u rfl hu
  all_goals exact hreg _ rfl

/-! ### Interrupt entry, fetch and the step -/

theorem ackThen_ensures {bit : Nat} {k : State → Result}
    (hr : s.launch.ackClearsIf = true → P (s.raise (.unmappedAddress Config.ifAddr)))
    (hoff : s.launch.ackClearsIf = false → Ensures P (k s))
    (hon : ∀ u, s.launch.ackClearsIf = true →
      s.busWrite Config.ifAddr (s.ifByte &&& ~~~(BitVec.twoPow 8 bit)) = some u → Ensures P (k u)) :
    Ensures P (ackThen bit s k) := by
  cases h : s.launch.ackClearsIf
  · simpa [ackThen, h] using hoff h
  · simp only [ackThen, h, if_true]
    exact writeThen_ensures (hr h) fun u hu => hon u h hu

theorem operandsThen_ensures {fm : Form} {k : Instr → Result}
    (hr : ∀ a, P (s.raise (.unmappedAddress a))) (hk : ∀ i, Ensures P (k i)) :
    Ensures P (operandsThen fm s k) := by
  cases fm with
  | op i => exact hk i
  | opN8 mk => exact readThen_ensures (hr _) fun n _ => hk (mk n)
  | opN16 mk =>
    exact readThen_ensures (hr _) fun lo _ => readThen_ensures (hr _) fun hi _ => hk _

theorem dispatchThen_ensures {key : Key} {k : Instr → Result} (hr : ∀ e, P (s.raise e))
    (hk : ∀ i, Ensures P (k i)) : Ensures P (dispatchThen key s k) := by
  simp only [dispatchThen]
  split
  · simpa [unknownOpcode] using hr _
  · split
    · simpa [unknownOpcode] using hr _
    · exact operandsThen_ensures (fun a => hr _) hk

theorem fetchThen_ensures {k : Instr → Result} (hr : ∀ e, P (s.raise e))
    (hk : ∀ i, Ensures P (k i)) : Ensures P (fetchThen s k) := by
  refine readThen_ensures (hr _) fun b0 _ => ?_
  split
  · exact readThen_ensures (hr _) fun b1 _ => dispatchThen_ensures hr hk
  · exact dispatchThen_ensures hr hk

theorem afterExec_ensures {arm : Bool} {n : Nat} {r : Result}
    (h : Ensures (fun u => (u.fault.isSome = true → P u) ∧ (u.fault = none → P (u.finish arm n))) r) :
    Ensures P (afterExec arm n r) := by
  cases r with
  | next u =>
    obtain ⟨h₁, h₂⟩ := (ensures_next _ _).mp h
    simp only [afterExec]
    split
    · next hf => simpa using h₁ hf
    · next hf => simpa using h₂ (by simpa using hf)
  | fault f => simp [afterExec]
  | refused f => simp [afterExec]

/-- Everything a step can do: nothing once the fault is latched; else one host move or one Cpu step. -/
theorem step_eq_next (h : step s = .next t) :
    s.fault = none ∧
    ((∃ plan, (s.hostPlan = .run :: plan ∨ s.hostPlan = [] ∧ plan = []) ∧
        cpuStep { s with hostPlan := plan } = .next t) ∨
      (∃ plan, s.hostPlan = .disableBoot :: plan ∧
        t = { s.begin.disableBoot with hostPlan := plan }) ∨
      (∃ v plan, s.hostPlan = .writeInput v :: plan ∧ s.launch.hostWrites = true ∧
        t = { s.begin.writeInput v with hostPlan := plan })) := by
  simp only [step, systemStep] at h
  split at h
  · simp at h
  · next hf =>
    refine ⟨hf, ?_⟩
    split at h
    · next hp =>
      exact .inl ⟨[], .inr ⟨hp, rfl⟩, by rw [← hp]; exact h⟩
    · next plan hp => exact .inl ⟨plan, .inl hp, h⟩
    · next plan hp => exact .inr (.inl ⟨plan, hp, by simpa using h.symm⟩)
    · next v plan hp =>
      split at h
      · next hw => exact .inr (.inr ⟨v, plan, hp, hw, by simpa using h.symm⟩)
      · simp at h

/-- Once the fault is latched there is no step (60_exceptions.md R204). -/
theorem step_of_latched {r : FaultRecord} (h : s.fault = some r) : step s = .fault (.latched r) := by
  simp [step, systemStep, h]

end Sys2Proof.Machine
end

