-- ==== Sys2Proof/Laws/PerInstr.lean ====
section
/-! SUPPORT. Per-instruction family `EncodedLength`: every encoding is 1 to 3 bytes long, and exactly 2
on the prefixed page (30_encoding.md R61). -/

namespace Sys2Proof.Laws.EncodedLength

/-- The length of an instruction is 1, 2 or 3, and 2 for a prefixed key (30_encoding.md R61). -/
def Statement (i : Instr) : Prop :=
  1 ≤ i.length ∧ i.length ≤ 3 ∧ (i.key.prefixed = true → i.length = 2)

/-- An unprefixed instruction of `n` bytes. -/
theorem of_plain {i : Instr} (n : Nat) (h : i.length = n) (hk : i.key.prefixed = false)
    (h₁ : 1 ≤ n) (h₃ : n ≤ 3) : Statement i := by
  subst h
  exact ⟨h₁, h₃, by simp [hk]⟩

/-- A prefixed instruction has 2 bytes. -/
theorem of_prefixed {i : Instr} (h : i.length = 2) : Statement i := by
  simp [Statement, h]

theorem nop : Statement .nop := of_plain 1 rfl rfl (by decide) (by decide)
theorem ldRrN16 (rr : PairSp) (n : Word) : Statement (.ldRrN16 rr n) := of_plain 3 rfl rfl (by decide) (by decide)
theorem ldBcA : Statement .ldBcA := of_plain 1 rfl rfl (by decide) (by decide)
theorem ldDeA : Statement .ldDeA := of_plain 1 rfl rfl (by decide) (by decide)
theorem ldHliA : Statement .ldHliA := of_plain 1 rfl rfl (by decide) (by decide)
theorem ldHldA : Statement .ldHldA := of_plain 1 rfl rfl (by decide) (by decide)
theorem incRr (rr : PairSp) : Statement (.incRr rr) := of_plain 1 rfl rfl (by decide) (by decide)
theorem incR8 (r : R8) : Statement (.incR8 r) := of_plain 1 rfl rfl (by decide) (by decide)
theorem decR8 (r : R8) : Statement (.decR8 r) := of_plain 1 rfl rfl (by decide) (by decide)
theorem ldRN8 (dst : R8) (n : Byte) : Statement (.ldRN8 dst n) := of_plain 2 rfl rfl (by decide) (by decide)
theorem ldHlN8 (n : Byte) : Statement (.ldHlN8 n) := of_plain 2 rfl rfl (by decide) (by decide)
theorem rlca : Statement .rlca := of_plain 1 rfl rfl (by decide) (by decide)
theorem rrca : Statement .rrca := of_plain 1 rfl rfl (by decide) (by decide)
theorem rla : Statement .rla := of_plain 1 rfl rfl (by decide) (by decide)
theorem rra : Statement .rra := of_plain 1 rfl rfl (by decide) (by decide)
theorem ldN16Sp (n : Word) : Statement (.ldN16Sp n) := of_plain 3 rfl rfl (by decide) (by decide)
theorem addHlRr (rr : PairSp) : Statement (.addHlRr rr) := of_plain 1 rfl rfl (by decide) (by decide)
theorem ldABc : Statement .ldABc := of_plain 1 rfl rfl (by decide) (by decide)
theorem ldADe : Statement .ldADe := of_plain 1 rfl rfl (by decide) (by decide)
theorem ldAHli : Statement .ldAHli := of_plain 1 rfl rfl (by decide) (by decide)
theorem ldAHld : Statement .ldAHld := of_plain 1 rfl rfl (by decide) (by decide)
theorem decRr (rr : PairSp) : Statement (.decRr rr) := of_plain 1 rfl rfl (by decide) (by decide)
theorem illegal10 : Statement .illegal10 := of_plain 1 rfl rfl (by decide) (by decide)
theorem jrE8 (e : Byte) : Statement (.jrE8 e) := of_plain 2 rfl rfl (by decide) (by decide)
theorem jrCcE8 (cc : Cond) (e : Byte) : Statement (.jrCcE8 cc e) := of_plain 2 rfl rfl (by decide) (by decide)
theorem daa : Statement .daa := of_plain 1 rfl rfl (by decide) (by decide)
theorem cpl : Statement .cpl := of_plain 1 rfl rfl (by decide) (by decide)
theorem scf : Statement .scf := of_plain 1 rfl rfl (by decide) (by decide)
theorem ccf : Statement .ccf := of_plain 1 rfl rfl (by decide) (by decide)
theorem ldRR (dst src : R8) : Statement (.ldRR dst src) := of_plain 1 rfl rfl (by decide) (by decide)
theorem ldRHl (dst : R8) : Statement (.ldRHl dst) := of_plain 1 rfl rfl (by decide) (by decide)
theorem ldHlR (src : R8) : Statement (.ldHlR src) := of_plain 1 rfl rfl (by decide) (by decide)
theorem illegal76 : Statement .illegal76 := of_plain 1 rfl rfl (by decide) (by decide)
theorem addAR8 (r : R8) : Statement (.addAR8 r) := of_plain 1 rfl rfl (by decide) (by decide)
theorem adcAR8 (r : R8) : Statement (.adcAR8 r) := of_plain 1 rfl rfl (by decide) (by decide)
theorem subAR8 (r : R8) : Statement (.subAR8 r) := of_plain 1 rfl rfl (by decide) (by decide)
theorem sbcAR8 (r : R8) : Statement (.sbcAR8 r) := of_plain 1 rfl rfl (by decide) (by decide)
theorem andAR8 (r : R8) : Statement (.andAR8 r) := of_plain 1 rfl rfl (by decide) (by decide)
theorem xorAR8 (r : R8) : Statement (.xorAR8 r) := of_plain 1 rfl rfl (by decide) (by decide)
theorem orAR8 (r : R8) : Statement (.orAR8 r) := of_plain 1 rfl rfl (by decide) (by decide)
theorem cpAR8 (r : R8) : Statement (.cpAR8 r) := of_plain 1 rfl rfl (by decide) (by decide)
theorem retCc (cc : Cond) : Statement (.retCc cc) := of_plain 1 rfl rfl (by decide) (by decide)
theorem popRr (rr : PairAf) : Statement (.popRr rr) := of_plain 1 rfl rfl (by decide) (by decide)
theorem jpCcN16 (cc : Cond) (n : Word) : Statement (.jpCcN16 cc n) := of_plain 3 rfl rfl (by decide) (by decide)
theorem jpN16 (n : Word) : Statement (.jpN16 n) := of_plain 3 rfl rfl (by decide) (by decide)
theorem callCcN16 (cc : Cond) (n : Word) : Statement (.callCcN16 cc n) := of_plain 3 rfl rfl (by decide) (by decide)
theorem pushRr (rr : PairAf) : Statement (.pushRr rr) := of_plain 1 rfl rfl (by decide) (by decide)
theorem addAN8 (n : Byte) : Statement (.addAN8 n) := of_plain 2 rfl rfl (by decide) (by decide)
theorem adcAN8 (n : Byte) : Statement (.adcAN8 n) := of_plain 2 rfl rfl (by decide) (by decide)
theorem subAN8 (n : Byte) : Statement (.subAN8 n) := of_plain 2 rfl rfl (by decide) (by decide)
theorem sbcAN8 (n : Byte) : Statement (.sbcAN8 n) := of_plain 2 rfl rfl (by decide) (by decide)
theorem andAN8 (n : Byte) : Statement (.andAN8 n) := of_plain 2 rfl rfl (by decide) (by decide)
theorem xorAN8 (n : Byte) : Statement (.xorAN8 n) := of_plain 2 rfl rfl (by decide) (by decide)
theorem orAN8 (n : Byte) : Statement (.orAN8 n) := of_plain 2 rfl rfl (by decide) (by decide)
theorem cpAN8 (n : Byte) : Statement (.cpAN8 n) := of_plain 2 rfl rfl (by decide) (by decide)
theorem rstT (t : BitVec 3) : Statement (.rstT t) := of_plain 1 rfl rfl (by decide) (by decide)
theorem ret : Statement .ret := of_plain 1 rfl rfl (by decide) (by decide)
theorem callN16 (n : Word) : Statement (.callN16 n) := of_plain 3 rfl rfl (by decide) (by decide)
theorem reti : Statement .reti := of_plain 1 rfl rfl (by decide) (by decide)
theorem ldhN8A (n : Byte) : Statement (.ldhN8A n) := of_plain 2 rfl rfl (by decide) (by decide)
theorem ldhAN8 (n : Byte) : Statement (.ldhAN8 n) := of_plain 2 rfl rfl (by decide) (by decide)
theorem ldhCA : Statement .ldhCA := of_plain 1 rfl rfl (by decide) (by decide)
theorem ldhAC : Statement .ldhAC := of_plain 1 rfl rfl (by decide) (by decide)
theorem addSpE8 (e : Byte) : Statement (.addSpE8 e) := of_plain 2 rfl rfl (by decide) (by decide)
theorem jpHl : Statement .jpHl := of_plain 1 rfl rfl (by decide) (by decide)
theorem ldN16A (n : Word) : Statement (.ldN16A n) := of_plain 3 rfl rfl (by decide) (by decide)
theorem ldAN16 (n : Word) : Statement (.ldAN16 n) := of_plain 3 rfl rfl (by decide) (by decide)
theorem di : Statement .di := of_plain 1 rfl rfl (by decide) (by decide)
theorem ei : Statement .ei := of_plain 1 rfl rfl (by decide) (by decide)
theorem ldHlSpE8 (e : Byte) : Statement (.ldHlSpE8 e) := of_plain 2 rfl rfl (by decide) (by decide)
theorem ldSpHl : Statement .ldSpHl := of_plain 1 rfl rfl (by decide) (by decide)
theorem illegalD3 : Statement .illegalD3 := of_plain 1 rfl rfl (by decide) (by decide)
theorem illegalDB : Statement .illegalDB := of_plain 1 rfl rfl (by decide) (by decide)
theorem illegalDD : Statement .illegalDD := of_plain 1 rfl rfl (by decide) (by decide)
theorem illegalE3 : Statement .illegalE3 := of_plain 1 rfl rfl (by decide) (by decide)
theorem illegalE4 : Statement .illegalE4 := of_plain 1 rfl rfl (by decide) (by decide)
theorem illegalEB : Statement .illegalEB := of_plain 1 rfl rfl (by decide) (by decide)
theorem illegalEC : Statement .illegalEC := of_plain 1 rfl rfl (by decide) (by decide)
theorem illegalED : Statement .illegalED := of_plain 1 rfl rfl (by decide) (by decide)
theorem illegalF4 : Statement .illegalF4 := of_plain 1 rfl rfl (by decide) (by decide)
theorem illegalFC : Statement .illegalFC := of_plain 1 rfl rfl (by decide) (by decide)
theorem illegalFD : Statement .illegalFD := of_plain 1 rfl rfl (by decide) (by decide)
theorem rlcR8 (r : R8) : Statement (.rlcR8 r) := of_prefixed rfl
theorem rrcR8 (r : R8) : Statement (.rrcR8 r) := of_prefixed rfl
theorem rlR8 (r : R8) : Statement (.rlR8 r) := of_prefixed rfl
theorem rrR8 (r : R8) : Statement (.rrR8 r) := of_prefixed rfl
theorem slaR8 (r : R8) : Statement (.slaR8 r) := of_prefixed rfl
theorem sraR8 (r : R8) : Statement (.sraR8 r) := of_prefixed rfl
theorem swapR8 (r : R8) : Statement (.swapR8 r) := of_prefixed rfl
theorem srlR8 (r : R8) : Statement (.srlR8 r) := of_prefixed rfl
theorem bitBR8 (b : BitVec 3) (r : R8) : Statement (.bitBR8 b r) := of_prefixed rfl
theorem resBR8 (b : BitVec 3) (r : R8) : Statement (.resBR8 b r) := of_prefixed rfl
theorem setBR8 (b : BitVec 3) (r : R8) : Statement (.setBR8 b r) := of_prefixed rfl

end Sys2Proof.Laws.EncodedLength
end

