-- ==== Sys2Proof/Laws/Step.lean ====
section
/-! SUPPORT. The bytes of an instruction as the fetch reads them, and the end of a step. -/

namespace Sys2Proof.Machine

/-- Consecutive bytes on the bus: the first, and then the rest. -/
theorem State.bytesAt_cons {s : State} {a : Word} {n : Nat} {v : Byte} {vs : List Byte} :
    s.bytesAt a (n + 1) = some (v :: vs) ↔
      s.busRead a = some v ∧ s.bytesAt (a + 1) n = some vs := by
  rw [State.bytesAt]
  cases s.busRead a <;> cases s.bytesAt (a + 1) n <;> simp

/-- Where every byte reads the same, so do all sequences of bytes. -/
theorem State.bytesAt_congr {s t : State} (h : ∀ a, s.busRead a = t.busRead a) (n : Nat) (a : Word) :
    s.bytesAt a n = t.bytesAt a n := by
  induction n generalizing a with
  | zero => rfl
  | succ n ih => simp only [State.bytesAt, h, ih]

/-- A form whose operand bytes stand after `pc` is completed to the instruction the byte decoder
completes it to (30_encoding.md R68). -/
theorem operandsThen_of_complete {fm : Form} {s : State} {bs : List Byte} {i : Instr}
    (hd : fm.complete bs = .ok (i, [])) (h : s.bytesAt (s.pc + 1) bs.length = some bs)
    (k : Instr → Result) : operandsThen fm s k = k i := by
  cases fm with
  | op j =>
    obtain ⟨rfl, -⟩ : j = i ∧ bs = [] := by simpa [Form.complete] using hd
    rfl
  | opN8 mk =>
    match bs with
    | [] => simp [Form.complete] at hd
    | n :: rest =>
      obtain ⟨rfl, rfl⟩ : mk n = i ∧ rest = [] := by simpa [Form.complete] using hd
      rw [operandsThen, readThen_of_read (State.bytesAt_cons.mp h).1]
  | opN16 mk =>
    match bs with
    | [] => simp [Form.complete] at hd
    | [_] => simp [Form.complete] at hd
    | lo :: hi :: rest =>
      obtain ⟨rfl, rfl⟩ : mk (cat hi lo) = i ∧ rest = [] := by simpa [Form.complete] using hd
      have hpc : s.pc + 1 + 1 = s.pc + 2 := by rw [BitVec.add_assoc]; rfl
      simp only [List.length_cons, State.bytesAt_cons, hpc] at h
      rw [operandsThen, readThen_of_read h.1, readThen_of_read h.2.1]

/-- A raise in the execute phase ends the step there (60_exceptions.md R206). -/
theorem afterExec_of_raise {arm : Bool} {n : Nat} {t : State} (h : t.fault.isSome = true) :
    afterExec arm n (.next t) = .next t := by
  simp [afterExec, h]

/-- An execute phase that did not raise is followed by the end of the step (60_exceptions.md R200). -/
theorem afterExec_of_done {arm : Bool} {n : Nat} {t : State} (h : t.fault = none) :
    afterExec arm n (.next t) = .next (t.finish arm n) := by
  simp [afterExec, h]

end Sys2Proof.Machine
end

