-- ==== Sys2Proof/Tests/Slice0.lean ====
section
/-! SUPPORT. The tests of the model: ill-formed terms are refused; a word written out from the spec's
bit pattern decodes for every constructor; small steps with the results that 95_test_vectors.md gives;
and for each statement with hypotheses a witness that meets them. -/

namespace Sys2Proof.Tests

set_option Elab.async false

open Machine Spec

/-! ### Well-formedness: one ill-formed term for each check -/

/-- LD r,n8 with `(HL)` as the register (41_ext_load8.md R101: `ddd != 6`). -/
theorem test_illFormed_ldRN8 : (Instr.ldRN8 .mhl 0x00).wellFormed = false := rfl

/-- LD r,r' with `(HL)` as the destination (R100: `ddd != 6`). -/
theorem test_illFormed_ldRR_destination : (Instr.ldRR .mhl .b).wellFormed = false := rfl

/-- LD r,r' with `(HL)` as the source (R100: `sss != 6`). -/
theorem test_illFormed_ldRR_source : (Instr.ldRR .b .mhl).wellFormed = false := rfl

/-- LD r,(HL) with `(HL)` as the register (R102: `ddd != 6`). -/
theorem test_illFormed_ldRHl : (Instr.ldRHl .mhl).wellFormed = false := rfl

/-- LD (HL),r with `(HL)` as the register (R103: `sss != 6`). -/
theorem test_illFormed_ldHlR : (Instr.ldHlR .mhl).wellFormed = false := rfl

/-! ### Decoding: a word for every constructor, bit by bit from 30_encoding.md R70 and R72 -/

/-- The instruction a list of bytes is, when it is exactly one. -/
def reads (bs : List Byte) : Option Instr :=
  match decode bs with
  | .ok (i, []) => some i
  | .ok (_, _ :: _) => none
  | .error _ => none

/-- Each list of bytes is the instruction beside it. -/
def readsAll (rows : List (List Byte × Instr)) : Bool := rows.all fun r => reads r.1 == some r.2

theorem test_decode_loads8 : readsAll [
    ([0b01111000], .ldRR .a .b), ([0b01101010], .ldRR .l .d), ([0b00111110, 0xA5], .ldRN8 .a 0xA5),
    ([0b01100110], .ldRHl .h), ([0b01110111], .ldHlR .a), ([0b00110110, 0x5A], .ldHlN8 0x5A),
    ([0b11101010, 0x0F, 0xFF], .ldN16A 0xFF0F), ([0b11111010, 0x34, 0x12], .ldAN16 0x1234)] = true := by decide +kernel

theorem test_decode_loadsA : readsAll [
    ([0b00000010], .ldBcA), ([0b00010010], .ldDeA), ([0b00001010], .ldABc),
    ([0b00011010], .ldADe), ([0b00100010], .ldHliA), ([0b00110010], .ldHldA),
    ([0b00101010], .ldAHli), ([0b00111010], .ldAHld), ([0b11100000, 0x80], .ldhN8A 0x80),
    ([0b11110000, 0x0F], .ldhAN8 0x0F), ([0b11100010], .ldhCA), ([0b11110010], .ldhAC)] = true := by decide +kernel

theorem test_decode_loads16 : readsAll [
    ([0b00110001, 0xFE, 0xFF], .ldRrN16 .sp 0xFFFE), ([0b00100001, 0x00, 0x80], .ldRrN16 .hl 0x8000), ([0b00001000, 0x00, 0xC1], .ldN16Sp 0xC100),
    ([0b11111000, 0xFF], .ldHlSpE8 0xFF), ([0b11111001], .ldSpHl)] = true := by decide +kernel

theorem test_decode_stack : readsAll [
    ([0b11110101], .pushRr .af), ([0b11010101], .pushRr .de), ([0b11110001], .popRr .af),
    ([0b11100001], .popRr .hl)] = true := by decide +kernel

theorem test_decode_alu8 : readsAll [
    ([0b10000000], .addAR8 .b), ([0b10001011], .adcAR8 .e), ([0b10010111], .subAR8 .a),
    ([0b10011100], .sbcAR8 .h), ([0b10100110], .andAR8 .mhl), ([0b10101111], .xorAR8 .a),
    ([0b10110010], .orAR8 .d), ([0b10111001], .cpAR8 .c)] = true := by decide +kernel

theorem test_decode_alu8n : readsAll [
    ([0b11000110, 0x01], .addAN8 0x01), ([0b11001110, 0x02], .adcAN8 0x02), ([0b11010110, 0x03], .subAN8 0x03),
    ([0b11011110, 0x04], .sbcAN8 0x04), ([0b11100110, 0x05], .andAN8 0x05), ([0b11101110, 0x06], .xorAN8 0x06),
    ([0b11110110, 0x07], .orAN8 0x07), ([0b11111110, 0x08], .cpAN8 0x08)] = true := by decide +kernel

theorem test_decode_adjust : readsAll [
    ([0b00110100], .incR8 .mhl), ([0b00101101], .decR8 .l), ([0b00100111], .daa),
    ([0b00101111], .cpl), ([0b00110111], .scf), ([0b00111111], .ccf)] = true := by decide +kernel

theorem test_decode_alu16 : readsAll [
    ([0b00010011], .incRr .de), ([0b00001011], .decRr .bc), ([0b00111001], .addHlRr .sp),
    ([0b11101000, 0xFE], .addSpE8 0xFE)] = true := by decide +kernel

theorem test_decode_rotateA : readsAll [
    ([0b00000111], .rlca), ([0b00010111], .rla), ([0b00001111], .rrca),
    ([0b00011111], .rra)] = true := by decide +kernel

theorem test_decode_prefixed : readsAll [
    ([0xCB, 0b00000000], .rlcR8 .b), ([0xCB, 0b00001001], .rrcR8 .c), ([0xCB, 0b00010010], .rlR8 .d),
    ([0xCB, 0b00011011], .rrR8 .e), ([0xCB, 0b00100100], .slaR8 .h), ([0xCB, 0b00101101], .sraR8 .l),
    ([0xCB, 0b00110110], .swapR8 .mhl), ([0xCB, 0b00111111], .srlR8 .a), ([0xCB, 0b01111100], .bitBR8 7 .h),
    ([0xCB, 0b10000110], .resBR8 0 .mhl), ([0xCB, 0b11011000], .setBR8 3 .b)] = true := by decide +kernel

theorem test_decode_jumps : readsAll [
    ([0b11000011, 0x06, 0xC0], .jpN16 0xC006), ([0b11011010, 0x00, 0xC1], .jpCcN16 .c 0xC100), ([0b11101001], .jpHl),
    ([0b00011000, 0xFB], .jrE8 0xFB), ([0b00110000, 0xFC], .jrCcE8 .nc 0xFC)] = true := by decide +kernel

theorem test_decode_calls : readsAll [
    ([0b11001101, 0x10, 0xC0], .callN16 0xC010), ([0b11001100, 0x00, 0xC2], .callCcN16 .z 0xC200), ([0b11001001], .ret),
    ([0b11000000], .retCc .nz), ([0b11011001], .reti), ([0b11101111], .rstT 5)] = true := by decide +kernel

theorem test_decode_control : readsAll [
    ([0b00000000], .nop), ([0b11110011], .di), ([0b11111011], .ei)] = true := by decide +kernel

theorem test_decode_unassigned : readsAll [
    ([0b00010000], .illegal10), ([0b01110110], .illegal76), ([0b11010011], .illegalD3),
    ([0b11011011], .illegalDB), ([0b11011101], .illegalDD), ([0b11100011], .illegalE3),
    ([0b11100100], .illegalE4), ([0b11101011], .illegalEB), ([0b11101100], .illegalEC),
    ([0b11101101], .illegalED), ([0b11110100], .illegalF4), ([0b11111100], .illegalFC),
    ([0b11111101], .illegalFD)] = true := by decide +kernel

/-- A list of bytes that ends before the second opcode byte or an operand byte is no instruction. -/
theorem test_decode_truncated :
    decode [0xCB] = .error .truncated ∧ decode [0xCD, 0x10] = .error .truncated ∧
      decode [] = .error .truncated := by decide +kernel

/-! ### Steps: the derived vectors of 95_test_vectors.md -/

/-- The base state of the vectors, with a cartridge of the largest size. -/
def base : State := { State.reset with pc := 0xC000 }

/-- The state with single bytes placed in it. -/
def poked (s : State) (cells : List (Word × Byte)) : State :=
  match cells with
  | [] => s
  | c :: rest => poked (s.plant c.1 c.2) rest

/-- Place the bytes at `pc`, make one step, and look at the state after it. -/
def ran {α : Type} (bs : List Byte) (s : State) (look : State → α) : Option α :=
  match step (s.plantAll s.pc bs) with
  | .next t => some (look t)
  | .fault _ => none
  | .refused _ => none

/-- V1 of 95_test_vectors.md. -/
theorem test_nop :
    ran [0x00] base
      (fun t => (t.a, t.f, t.pc, t.out.cycles)) =
    some (0x01, 0xB0, 0xC001, some 4) := by decide +kernel

/-- V2 of 95_test_vectors.md. -/
theorem test_xorAR8_self :
    ran [0xAF] { base with a := 0x5A, f := 0x70 }
      (fun t => (t.a, t.f, t.pc, t.out.cycles)) =
    some (0x00, 0x80, 0xC001, some 4) := by decide +kernel

/-- V3 of 95_test_vectors.md. -/
theorem test_xorAR8 :
    ran [0xA8] { base with a := 0x5A, b := 0x0F }
      (fun t => (t.a, t.f, t.pc, t.out.cycles)) =
    some (0x55, 0x00, 0xC001, some 4) := by decide +kernel

/-- V4 of 95_test_vectors.md. -/
theorem test_xorAN8 :
    ran [0xEE, 0xFF] { base with a := 0x0F }
      (fun t => (t.a, t.f, t.pc, t.out.cycles)) =
    some (0xF0, 0x00, 0xC002, some 8) := by decide +kernel

/-- V6 of 95_test_vectors.md. -/
theorem test_incR8_keepsCarry :
    ran [0x3C] { base with a := 0xFF, f := 0x10 }
      (fun t => (t.a, t.f, t.pc, t.out.cycles)) =
    some (0x00, 0xB0, 0xC001, some 4) := by decide +kernel

/-- V9 of 95_test_vectors.md. -/
theorem test_incR8_writeBackRaises :
    ran [0x34] { base with h := 0x01, l := 0x50, f := 0x00, launch := { base.launch with cart := [(0x0150, 0x0F)] } }
      (fun t => (t.pc, t.fault)) =
    some (0xC000, some ⟨.unmappedAddress 0x0150, 0xC000⟩) := by decide +kernel

/-- V11 of 95_test_vectors.md. -/
theorem test_decR8_keepsCarry :
    ran [0x05] { base with b := 0x01, f := 0x10 }
      (fun t => (t.f, t.b, t.pc, t.out.cycles)) =
    some (0xD0, 0x00, 0xC001, some 4) := by decide +kernel

/-- V12 of 95_test_vectors.md. -/
theorem test_decR8_halfBorrow :
    ran [0x05] { base with b := 0x10, f := 0x00 }
      (fun t => (t.f, t.b, t.pc, t.out.cycles)) =
    some (0x60, 0x0F, 0xC001, some 4) := by decide +kernel

/-- V14 of 95_test_vectors.md. -/
theorem test_cpAR8_memory :
    ran [0xBE] (poked { base with a := 0x10, h := 0xC1, l := 0x00, f := 0x00 } [(0xC100, 0x20)])
      (fun t => (t.f, t.pc, t.out.cycles)) =
    some (0x50, 0xC001, some 8) := by decide +kernel

/-- V15 of 95_test_vectors.md. -/
theorem test_cpAN8_halfBorrow :
    ran [0xFE, 0x2F] { base with a := 0x3C, f := 0x00 }
      (fun t => (t.f, t.pc, t.out.cycles)) =
    some (0x60, 0xC002, some 8) := by decide +kernel

/-- V18 of 95_test_vectors.md. -/
theorem test_bitBR8_zero :
    ran [0xCB, 0x7C] { base with h := 0x00, f := 0x10 }
      (fun t => (t.f, t.pc, t.out.cycles)) =
    some (0xB0, 0xC002, some 8) := by decide +kernel

/-- V20 of 95_test_vectors.md. -/
theorem test_bitBR8_memory :
    ran [0xCB, 0x46] (poked { base with h := 0xC1, l := 0x00, f := 0x00 } [(0xC100, 0x01)])
      (fun t => (t.f, t.pc, t.out.cycles)) =
    some (0x20, 0xC002, some 12) := by decide +kernel

/-- V22 of 95_test_vectors.md. -/
theorem test_pushRr :
    ran [0xC5] { base with b := 0x12, c := 0x34 }
      (fun t => (t.sp, t.pc, t.busRead 0xFFFD, t.busRead 0xFFFC, t.out.cycles)) =
    some (0xFFFC, 0xC001, some 0x12, some 0x34, some 16) := by decide +kernel

/-- V24 of 95_test_vectors.md. -/
theorem test_pushRr_wrapRaises :
    ran [0xC5] { base with b := 0x12, c := 0x34, sp := 0x0001 }
      (fun t => (t.sp, t.pc, t.fault)) =
    some (0x0000, 0xC000, some ⟨.unmappedAddress 0x0000, 0xC000⟩) := by decide +kernel

/-- V25 of 95_test_vectors.md. -/
theorem test_popRr :
    ran [0xD1] (poked { base with sp := 0xFFFC } [(0xFFFC, 0x34), (0xFFFD, 0x12)])
      (fun t => (t.d, t.e, t.sp, t.pc, t.out.cycles)) =
    some (0x12, 0x34, 0xFFFE, 0xC001, some 12) := by decide +kernel

/-- V26 of 95_test_vectors.md. -/
theorem test_popRr_masksFlags :
    ran [0xF1] (poked { base with sp := 0xFFFC } [(0xFFFC, 0xFF), (0xFFFD, 0x9A)])
      (fun t => (t.a, t.f, t.sp, t.pc, t.out.cycles)) =
    some (0x9A, 0xF0, 0xFFFE, 0xC001, some 12) := by decide +kernel

/-- V27 of 95_test_vectors.md. -/
theorem test_callN16 :
    ran [0xCD, 0x10, 0xC0] { base with pc := 0xC002 }
      (fun t => (t.sp, t.pc, t.busRead 0xFFFD, t.busRead 0xFFFC, t.out.cycles)) =
    some (0xFFFC, 0xC010, some 0xC0, some 0x05, some 24) := by decide +kernel

/-- V148 of 95_test_vectors.md. -/
theorem test_callN16_secondPushRaises :
    ran [0xCD, 0x10, 0xC0] { base with sp := 0xFF01 }
      (fun t => (t.sp, t.pc, t.busRead 0xFF00, t.fault)) =
    some (0xFEFF, 0xC000, some 0xC0, some ⟨.unmappedAddress 0xFEFF, 0xC000⟩) := by decide +kernel

/-- V29 of 95_test_vectors.md. -/
theorem test_ret :
    ran [0xC9] (poked { base with sp := 0xFFFC } [(0xFFFC, 0x05), (0xFFFD, 0xC0)])
      (fun t => (t.sp, t.pc, t.out.cycles)) =
    some (0xFFFE, 0xC005, some 16) := by decide +kernel

/-- V30 of 95_test_vectors.md. -/
theorem test_jpN16 :
    ran [0xC3, 0x06, 0xC0] base
      (fun t => (t.pc, t.out.cycles)) =
    some (0xC006, some 16) := by decide +kernel

/-- V33 of 95_test_vectors.md. -/
theorem test_ei :
    ran [0xFB] base
      (fun t => (t.pc, t.ime, t.imePending, t.out.cycles)) =
    some (0xC001, false, true, some 4) := by decide +kernel

/-- V36 of 95_test_vectors.md. -/
theorem test_di :
    ran [0xF3] { base with ime := true }
      (fun t => (t.pc, t.ime, t.out.cycles)) =
    some (0xC001, false, some 4) := by decide +kernel

/-- V37 of 95_test_vectors.md. -/
theorem test_ldRR :
    ran [0x78] { base with b := 0x42 }
      (fun t => (t.a, t.pc, t.out.cycles)) =
    some (0x42, 0xC001, some 4) := by decide +kernel

/-- V40 of 95_test_vectors.md. -/
theorem test_ldRN8 :
    ran [0x2E, 0x7F] base
      (fun t => (t.l, t.pc, t.out.cycles)) =
    some (0x7F, 0xC002, some 8) := by decide +kernel

/-- V41 of 95_test_vectors.md. -/
theorem test_ldRHl :
    ran [0x7E] (poked { base with h := 0xC1, l := 0x00 } [(0xC100, 0x7B)])
      (fun t => (t.a, t.pc, t.out.cycles)) =
    some (0x7B, 0xC001, some 8) := by decide +kernel

/-- V43 of 95_test_vectors.md. -/
theorem test_ldHlR :
    ran [0x74] { base with h := 0xC1, l := 0x00 }
      (fun t => (t.pc, t.busRead 0xC100, t.out.cycles)) =
    some (0xC001, some 0xC1, some 8) := by decide +kernel

/-- V44 of 95_test_vectors.md. -/
theorem test_ldHlN8 :
    ran [0x36, 0x5A] { base with h := 0xC1, l := 0x00 }
      (fun t => (t.pc, t.busRead 0xC100, t.out.cycles)) =
    some (0xC002, some 0x5A, some 12) := by decide +kernel

/-- V45 of 95_test_vectors.md. -/
theorem test_ldN16A :
    ran [0xEA, 0x0F, 0xFF] { base with a := 0x01 }
      (fun t => (t.pc, t.busRead 0xFF0F, t.out.cycles)) =
    some (0xC003, some 0x01, some 16) := by decide +kernel

/-- V144 of 95_test_vectors.md. -/
theorem test_ldN16A_romRaises :
    ran [0xEA, 0x00, 0x20] base
      (fun t => (t.pc, t.fault)) =
    some (0xC000, some ⟨.unmappedAddress 0x2000, 0xC000⟩) := by decide +kernel

/-- V46 of 95_test_vectors.md. -/
theorem test_ldBcA :
    ran [0x02] { base with b := 0xC0, c := 0x20, a := 0x11 }
      (fun t => (t.pc, t.busRead 0xC020, t.out.cycles)) =
    some (0xC001, some 0x11, some 8) := by decide +kernel

/-- V47 of 95_test_vectors.md. -/
theorem test_ldDeA :
    ran [0x12] { base with d := 0x98, e := 0x00, a := 0x22 }
      (fun t => (t.pc, t.busRead 0x9800, t.out.cycles)) =
    some (0xC001, some 0x22, some 8) := by decide +kernel

/-- V48 of 95_test_vectors.md. -/
theorem test_ldABc :
    ran [0x0A] (poked { base with b := 0xC0, c := 0x20 } [(0xC020, 0x11)])
      (fun t => (t.a, t.pc, t.out.cycles)) =
    some (0x11, 0xC001, some 8) := by decide +kernel

/-- V49 of 95_test_vectors.md. -/
theorem test_ldADe :
    ran [0x1A] { base with d := 0x01, e := 0x04, launch := { base.launch with cart := [(0x0104, 0xCE)] } }
      (fun t => (t.a, t.pc, t.out.cycles)) =
    some (0xCE, 0xC001, some 8) := by decide +kernel

/-- V50 of 95_test_vectors.md. -/
theorem test_ldhCA :
    ran [0xE2] { base with c := 0x40, a := 0x80 }
      (fun t => (t.pc, t.busRead 0xFF40, t.out.cycles)) =
    some (0xC001, some 0x80, some 8) := by decide +kernel

/-- V51 of 95_test_vectors.md. -/
theorem test_ldhAC :
    ran [0xF2] (poked { base with c := 0x80 } [(0xFF80, 0x6D)])
      (fun t => (t.a, t.pc, t.out.cycles)) =
    some (0x6D, 0xC001, some 8) := by decide +kernel

/-- V52 of 95_test_vectors.md. -/
theorem test_ldhN8A :
    ran [0xE0, 0x80] { base with a := 0x33 }
      (fun t => (t.pc, t.busRead 0xFF80, t.out.cycles)) =
    some (0xC002, some 0x33, some 12) := by decide +kernel

/-- V53 of 95_test_vectors.md. -/
theorem test_ldhAN8 :
    ran [0xF0, 0x0F] (poked base [(0xFF0F, 0x05)])
      (fun t => (t.a, t.pc, t.out.cycles)) =
    some (0x05, 0xC002, some 12) := by decide +kernel

/-- V54 of 95_test_vectors.md. -/
theorem test_ldAN16_echo :
    ran [0xFA, 0x00, 0xE1] (poked base [(0xC100, 0x77)])
      (fun t => (t.a, t.pc, t.out.cycles)) =
    some (0x77, 0xC003, some 16) := by decide +kernel

/-- V145 of 95_test_vectors.md. -/
theorem test_ldAN16_beyondCartridgeRaises :
    ran [0xFA, 0x00, 0x40] { base with launch := { base.launch with cartLen := 0x4000 } }
      (fun t => (t.a, t.pc, t.fault)) =
    some (0x01, 0xC000, some ⟨.unmappedAddress 0x4000, 0xC000⟩) := by decide +kernel

/-- V55 of 95_test_vectors.md. -/
theorem test_ldHliA_wraps :
    ran [0x22] { base with h := 0xFF, l := 0xFF, a := 0x1F }
      (fun t => (t.h, t.l, t.pc, t.busRead 0xFFFF, t.out.cycles)) =
    some (0x00, 0x00, 0xC001, some 0x1F, some 8) := by decide +kernel

/-- V56 of 95_test_vectors.md. -/
theorem test_ldHldA :
    ran [0x32] { base with h := 0x9F, l := 0xFF, a := 0x3C }
      (fun t => (t.l, t.pc, t.busRead 0x9FFF, t.out.cycles)) =
    some (0xFE, 0xC001, some 0x3C, some 8) := by decide +kernel

/-- V57 of 95_test_vectors.md. -/
theorem test_ldAHli :
    ran [0x2A] (poked { base with h := 0xC1, l := 0x00 } [(0xC100, 0x09)])
      (fun t => (t.a, t.l, t.pc, t.out.cycles)) =
    some (0x09, 0x01, 0xC001, some 8) := by decide +kernel

/-- V58 of 95_test_vectors.md. -/
theorem test_ldAHld :
    ran [0x3A] (poked { base with h := 0xC1, l := 0x01 } [(0xC101, 0x0A)])
      (fun t => (t.a, t.l, t.pc, t.out.cycles)) =
    some (0x0A, 0x00, 0xC001, some 8) := by decide +kernel

/-- V59 of 95_test_vectors.md. -/
theorem test_ldRrN16 :
    ran [0x21, 0x00, 0x80] base
      (fun t => (t.h, t.l, t.pc, t.out.cycles)) =
    some (0x80, 0x00, 0xC003, some 12) := by decide +kernel

/-- V62 of 95_test_vectors.md. -/
theorem test_ldN16Sp :
    ran [0x08, 0x00, 0xC1] { base with sp := 0xFFF8 }
      (fun t => (t.pc, t.busRead 0xC101, t.busRead 0xC100, t.out.cycles)) =
    some (0xC003, some 0xFF, some 0xF8, some 20) := by decide +kernel

/-- V153 of 95_test_vectors.md. -/
theorem test_ldN16Sp_straddles :
    ran [0x08, 0xFF, 0xDF] { base with pc := 0xC100, sp := 0x1234 }
      (fun t => (t.pc, t.busRead 0xE000, t.busRead 0xDFFF, t.out.cycles)) =
    some (0xC103, some 0x12, some 0x34, some 20) := by decide +kernel

/-- V64 of 95_test_vectors.md. -/
theorem test_ldHlSpE8 :
    ran [0xF8, 0xFF] { base with sp := 0x0001 }
      (fun t => (t.f, t.h, t.l, t.pc, t.out.cycles)) =
    some (0x30, 0x00, 0x00, 0xC002, some 12) := by decide +kernel

/-- V65 of 95_test_vectors.md. -/
theorem test_ldSpHl :
    ran [0xF9] { base with h := 0xDF, l := 0xFF }
      (fun t => (t.sp, t.pc, t.out.cycles)) =
    some (0xDFFF, 0xC001, some 8) := by decide +kernel

/-- V66 of 95_test_vectors.md. -/
theorem test_addAR8 :
    ran [0x80] { base with a := 0x3A, b := 0xC6, f := 0x00 }
      (fun t => (t.a, t.f, t.pc, t.out.cycles)) =
    some (0x00, 0xB0, 0xC001, some 4) := by decide +kernel

/-- V67 of 95_test_vectors.md. -/
theorem test_addAN8 :
    ran [0xC6, 0x01] { base with a := 0x0F, f := 0x00 }
      (fun t => (t.a, t.f, t.pc, t.out.cycles)) =
    some (0x10, 0x20, 0xC002, some 8) := by decide +kernel

/-- V69 of 95_test_vectors.md. -/
theorem test_adcAR8 :
    ran [0x8B] { base with a := 0xE1, e := 0x0F, f := 0x10 }
      (fun t => (t.a, t.f, t.pc, t.out.cycles)) =
    some (0xF1, 0x20, 0xC001, some 4) := by decide +kernel

/-- V70 of 95_test_vectors.md. -/
theorem test_adcAN8 :
    ran [0xCE, 0x00] { base with a := 0xFF, f := 0x10 }
      (fun t => (t.a, t.f, t.pc, t.out.cycles)) =
    some (0x00, 0xB0, 0xC002, some 8) := by decide +kernel

/-- V71 of 95_test_vectors.md. -/
theorem test_subAR8 :
    ran [0x97] { base with a := 0x3E, f := 0x00 }
      (fun t => (t.a, t.f, t.pc, t.out.cycles)) =
    some (0x00, 0xC0, 0xC001, some 4) := by decide +kernel

/-- V73 of 95_test_vectors.md. -/
theorem test_subAN8_borrow :
    ran [0xD6, 0x40] { base with a := 0x3E, f := 0x00 }
      (fun t => (t.a, t.f, t.pc, t.out.cycles)) =
    some (0xFE, 0x50, 0xC002, some 8) := by decide +kernel

/-- V76 of 95_test_vectors.md. -/
theorem test_sbcAR8 :
    ran [0x9F] { base with a := 0x42, f := 0x10 }
      (fun t => (t.a, t.f, t.pc, t.out.cycles)) =
    some (0xFF, 0x70, 0xC001, some 4) := by decide +kernel

/-- V75 of 95_test_vectors.md. -/
theorem test_sbcAN8 :
    ran [0xDE, 0xFF] { base with a := 0x00, f := 0x10 }
      (fun t => (t.f, t.pc, t.out.cycles)) =
    some (0xF0, 0xC002, some 8) := by decide +kernel

/-- V77 of 95_test_vectors.md. -/
theorem test_andAN8 :
    ran [0xE6, 0x3F] { base with a := 0x5A, f := 0x00 }
      (fun t => (t.a, t.f, t.pc, t.out.cycles)) =
    some (0x1A, 0x20, 0xC002, some 8) := by decide +kernel

/-- V79 of 95_test_vectors.md. -/
theorem test_orAR8 :
    ran [0xB0] { base with a := 0x00, b := 0x00, f := 0x70 }
      (fun t => (t.f, t.pc, t.out.cycles)) =
    some (0x80, 0xC001, some 4) := by decide +kernel

/-- V80 of 95_test_vectors.md. -/
theorem test_orAN8 :
    ran [0xF6, 0x03] { base with a := 0x5A, f := 0xF0 }
      (fun t => (t.a, t.f, t.pc, t.out.cycles)) =
    some (0x5B, 0x00, 0xC002, some 8) := by decide +kernel

/-- V82 of 95_test_vectors.md. -/
theorem test_daa :
    ran [0x27] { base with a := 0x9A, f := 0x00 }
      (fun t => (t.a, t.f, t.pc, t.out.cycles)) =
    some (0x00, 0x90, 0xC001, some 4) := by decide +kernel

/-- V84 of 95_test_vectors.md. -/
theorem test_cpl :
    ran [0x2F] { base with a := 0x35, f := 0x80 }
      (fun t => (t.a, t.f, t.pc, t.out.cycles)) =
    some (0xCA, 0xE0, 0xC001, some 4) := by decide +kernel

/-- V85 of 95_test_vectors.md. -/
theorem test_scf :
    ran [0x37] { base with f := 0xE0 }
      (fun t => (t.f, t.pc, t.out.cycles)) =
    some (0x90, 0xC001, some 4) := by decide +kernel

/-- V86 of 95_test_vectors.md. -/
theorem test_ccf :
    ran [0x3F] { base with f := 0xF0 }
      (fun t => (t.f, t.pc, t.out.cycles)) =
    some (0x80, 0xC001, some 4) := by decide +kernel

/-- V89 of 95_test_vectors.md. -/
theorem test_incRr_wraps :
    ran [0x33] { base with sp := 0xFFFF }
      (fun t => (t.f, t.sp, t.pc, t.out.cycles)) =
    some (0xB0, 0x0000, 0xC001, some 8) := by decide +kernel

/-- V90 of 95_test_vectors.md. -/
theorem test_decRr_wraps :
    ran [0x0B] { base with b := 0x00, c := 0x00 }
      (fun t => (t.f, t.b, t.c, t.pc, t.out.cycles)) =
    some (0xB0, 0xFF, 0xFF, 0xC001, some 8) := by decide +kernel

/-- V91 of 95_test_vectors.md. -/
theorem test_addHlRr :
    ran [0x09] { base with h := 0x8A, l := 0x23, b := 0x06, c := 0x05, f := 0x80 }
      (fun t => (t.f, t.h, t.l, t.pc, t.out.cycles)) =
    some (0xA0, 0x90, 0x28, 0xC001, some 8) := by decide +kernel

/-- V93 of 95_test_vectors.md. -/
theorem test_addHlRr_sp :
    ran [0x39] { base with h := 0x00, l := 0x02, f := 0x00, sp := 0xFFFE }
      (fun t => (t.f, t.l, t.pc, t.out.cycles)) =
    some (0x30, 0x00, 0xC001, some 8) := by decide +kernel

/-- V94 of 95_test_vectors.md. -/
theorem test_addSpE8 :
    ran [0xE8, 0x02] { base with sp := 0xFFF8 }
      (fun t => (t.f, t.sp, t.pc, t.out.cycles)) =
    some (0x00, 0xFFFA, 0xC002, some 16) := by decide +kernel

/-- V95 of 95_test_vectors.md. -/
theorem test_addSpE8_negative :
    ran [0xE8, 0xFE] { base with sp := 0xFFF8 }
      (fun t => (t.f, t.sp, t.pc, t.out.cycles)) =
    some (0x30, 0xFFF6, 0xC002, some 16) := by decide +kernel

/-- V97 of 95_test_vectors.md. -/
theorem test_rlca_zero :
    ran [0x07] { base with a := 0x00, f := 0xF0 }
      (fun t => (t.f, t.pc, t.out.cycles)) =
    some (0x00, 0xC001, some 4) := by decide +kernel

/-- V98 of 95_test_vectors.md. -/
theorem test_rla :
    ran [0x17] { base with a := 0x95, f := 0x10 }
      (fun t => (t.a, t.pc, t.out.cycles)) =
    some (0x2B, 0xC001, some 4) := by decide +kernel

/-- V99 of 95_test_vectors.md. -/
theorem test_rrca :
    ran [0x0F] { base with a := 0x3B, f := 0x00 }
      (fun t => (t.a, t.f, t.pc, t.out.cycles)) =
    some (0x9D, 0x10, 0xC001, some 4) := by decide +kernel

/-- V100 of 95_test_vectors.md. -/
theorem test_rra :
    ran [0x1F] { base with a := 0x81, f := 0x00 }
      (fun t => (t.a, t.f, t.pc, t.out.cycles)) =
    some (0x40, 0x10, 0xC001, some 4) := by decide +kernel

/-- V103 of 95_test_vectors.md. -/
theorem test_rlcR8_memory :
    ran [0xCB, 0x06] (poked { base with h := 0xC1, l := 0x00, f := 0x00 } [(0xC100, 0x80)])
      (fun t => (t.f, t.pc, t.busRead 0xC100, t.out.cycles)) =
    some (0x10, 0xC002, some 0x01, some 16) := by decide +kernel

/-- V104 of 95_test_vectors.md. -/
theorem test_rrcR8 :
    ran [0xCB, 0x09] { base with c := 0x01, f := 0x00 }
      (fun t => (t.f, t.c, t.pc, t.out.cycles)) =
    some (0x10, 0x80, 0xC002, some 8) := by decide +kernel

/-- V106 of 95_test_vectors.md. -/
theorem test_rlR8 :
    ran [0xCB, 0x10] { base with b := 0x80, f := 0x00 }
      (fun t => (t.f, t.b, t.pc, t.out.cycles)) =
    some (0x90, 0x00, 0xC002, some 8) := by decide +kernel

/-- V107 of 95_test_vectors.md. -/
theorem test_rrR8 :
    ran [0xCB, 0x1A] { base with d := 0x8A, f := 0x10 }
      (fun t => (t.f, t.d, t.pc, t.out.cycles)) =
    some (0x00, 0xC5, 0xC002, some 8) := by decide +kernel

/-- V109 of 95_test_vectors.md. -/
theorem test_slaR8 :
    ran [0xCB, 0x23] { base with e := 0x80, f := 0x00 }
      (fun t => (t.f, t.e, t.pc, t.out.cycles)) =
    some (0x90, 0x00, 0xC002, some 8) := by decide +kernel

/-- V111 of 95_test_vectors.md. -/
theorem test_sraR8 :
    ran [0xCB, 0x2F] { base with a := 0x01, f := 0x00 }
      (fun t => (t.a, t.f, t.pc, t.out.cycles)) =
    some (0x00, 0x90, 0xC002, some 8) := by decide +kernel

/-- V112 of 95_test_vectors.md. -/
theorem test_swapR8 :
    ran [0xCB, 0x37] { base with a := 0xF1, f := 0xF0 }
      (fun t => (t.a, t.f, t.pc, t.out.cycles)) =
    some (0x1F, 0x00, 0xC002, some 8) := by decide +kernel

/-- V114 of 95_test_vectors.md. -/
theorem test_srlR8 :
    ran [0xCB, 0x3D] { base with l := 0xFF, f := 0x00 }
      (fun t => (t.f, t.l, t.pc, t.out.cycles)) =
    some (0x10, 0x7F, 0xC002, some 8) := by decide +kernel

/-- V116 of 95_test_vectors.md. -/
theorem test_resBR8_memory :
    ran [0xCB, 0x86] (poked { base with h := 0xC1, l := 0x00 } [(0xC100, 0xFF)])
      (fun t => (t.pc, t.busRead 0xC100, t.out.cycles)) =
    some (0xC002, some 0xFE, some 16) := by decide +kernel

/-- V117 of 95_test_vectors.md. -/
theorem test_setBR8_memory :
    ran [0xCB, 0xFE] { base with h := 0xFF, l := 0x40 }
      (fun t => (t.f, t.pc, t.busRead 0xFF40, t.out.cycles)) =
    some (0xB0, 0xC002, some 0x80, some 16) := by decide +kernel

/-- V119 of 95_test_vectors.md. -/
theorem test_jpCcN16_taken :
    ran [0xCA, 0x00, 0xC1] { base with pc := 0xC010, f := 0x80 }
      (fun t => (t.pc, t.out.cycles)) =
    some (0xC100, some 16) := by decide +kernel

/-- V120 of 95_test_vectors.md. -/
theorem test_jpCcN16_notTaken :
    ran [0xCA, 0x00, 0xC1] { base with pc := 0xC010, f := 0x00 }
      (fun t => (t.pc, t.out.cycles)) =
    some (0xC013, some 12) := by decide +kernel

/-- V121 of 95_test_vectors.md. -/
theorem test_jpHl :
    ran [0xE9] { base with h := 0xC2, l := 0x00 }
      (fun t => (t.pc, t.out.cycles)) =
    some (0xC200, some 4) := by decide +kernel

/-- V123 of 95_test_vectors.md. -/
theorem test_jrE8_backward :
    ran [0x18, 0xFB] { base with pc := 0xC010 }
      (fun t => (t.pc, t.out.cycles)) =
    some (0xC00D, some 12) := by decide +kernel

/-- V125 of 95_test_vectors.md. -/
theorem test_jrCcE8_taken :
    ran [0x20, 0xFC] { base with pc := 0xC009, f := 0x00 }
      (fun t => (t.pc, t.out.cycles)) =
    some (0xC007, some 12) := by decide +kernel

/-- V126 of 95_test_vectors.md. -/
theorem test_jrCcE8_notTaken :
    ran [0x20, 0xFC] { base with pc := 0xC009, f := 0x80 }
      (fun t => (t.pc, t.out.cycles)) =
    some (0xC00B, some 8) := by decide +kernel

/-- V128 of 95_test_vectors.md. -/
theorem test_callCcN16_taken :
    ran [0xDC, 0x00, 0xC2] { base with pc := 0xC020, f := 0x10 }
      (fun t => (t.sp, t.pc, t.busRead 0xFFFD, t.busRead 0xFFFC, t.out.cycles)) =
    some (0xFFFC, 0xC200, some 0xC0, some 0x23, some 24) := by decide +kernel

/-- V129 of 95_test_vectors.md. -/
theorem test_callCcN16_notTaken :
    ran [0xD4, 0x00, 0xC2] { base with pc := 0xC020, f := 0x10 }
      (fun t => (t.sp, t.pc, t.out.cycles)) =
    some (0xFFFE, 0xC023, some 12) := by decide +kernel

/-- V130 of 95_test_vectors.md. -/
theorem test_retCc_taken :
    ran [0xC0] (poked { base with f := 0x00, sp := 0xFFFC } [(0xFFFC, 0x05), (0xFFFD, 0xC0)])
      (fun t => (t.sp, t.pc, t.out.cycles)) =
    some (0xFFFE, 0xC005, some 20) := by decide +kernel

/-- V131 of 95_test_vectors.md. -/
theorem test_retCc_notTaken :
    ran [0xC8] (poked { base with f := 0x00, sp := 0xFFFC } [(0xFFFC, 0x05), (0xFFFD, 0xC0)])
      (fun t => (t.sp, t.pc, t.out.cycles)) =
    some (0xFFFC, 0xC001, some 8) := by decide +kernel

/-- V132 of 95_test_vectors.md. -/
theorem test_reti :
    ran [0xD9] (poked { base with sp := 0xFFFC } [(0xFFFC, 0x08), (0xFFFD, 0x01)])
      (fun t => (t.sp, t.pc, t.ime, t.out.cycles)) =
    some (0xFFFE, 0x0108, true, some 16) := by decide +kernel

/-- V133 of 95_test_vectors.md. -/
theorem test_rstT :
    ran [0xEF] { base with pc := 0xC030 }
      (fun t => (t.sp, t.pc, t.busRead 0xFFFD, t.busRead 0xFFFC, t.out.cycles)) =
    some (0xFFFC, 0x0028, some 0xC0, some 0x31, some 16) := by decide +kernel

/-- V138 of 95_test_vectors.md. -/
theorem test_groupX_absent :
    ran [0x3E, 0x01] { base with launch := { base.launch with dispatchExt := false } }
      (fun t => (t.pc, t.fault)) =
    some (0xC000, some ⟨.unknownOpcode ⟨false, 0x3E⟩, 0xC000⟩) := by decide +kernel

/-- V139 of 95_test_vectors.md. -/
theorem test_groupX_prefixed_absent :
    ran [0xCB, 0x00] { base with launch := { base.launch with dispatchExt := false } }
      (fun t => (t.pc, t.fault)) =
    some (0xC000, some ⟨.unknownOpcode ⟨true, 0x00⟩, 0xC000⟩) := by decide +kernel

/-- V142 of 95_test_vectors.md. -/
theorem test_operandFetch_raises :
    ran [] (poked { base with pc := 0xFDFF } [(0xDDFF, 0x3E)])
      (fun t => (t.pc, t.fault)) =
    some (0xFDFF, some ⟨.unmappedAddress 0xFE00, 0xFDFF⟩) := by decide +kernel

/-- V155 of 95_test_vectors.md. -/
theorem test_dispatch_lowestBit :
    ran [0x00] (poked { base with ime := true } [(0xFFFF, 0x03), (0xFF0F, 0x03)])
      (fun t => ((t.sp, t.pc, t.ime), (t.busRead 0xFFFD, t.busRead 0xFFFC, t.out.cycles))) =
    some ((0xFFFC, 0x0041, false), (some 0xC0, some 0x00, some 24)) := by decide +kernel

/-- V160 of 95_test_vectors.md. -/
theorem test_dispatch_acknowledges :
    ran [0x00] (poked { base with ime := true, launch := { base.launch with ackClearsIf := true } } [(0xFFFF, 0x03), (0xFF0F, 0x03)])
      (fun t => (t.ime, t.busRead 0xFFFD, t.busRead 0xFFFC, t.busRead 0xFF0F, t.out.cycles)) =
    some (false, some 0xC0, some 0x00, some 0x02, some 24) := by decide +kernel

/-- V165 of 95_test_vectors.md. -/
theorem test_dispatch_pushRaises :
    ran [0x00] (poked { base with sp := 0xFF00, ime := true } [(0xFFFF, 0x01), (0xFF0F, 0x01)])
      (fun t => (t.sp, t.pc, t.fault)) =
    some (0xFEFF, 0xC000, some ⟨.unmappedAddress 0xFEFF, 0xC000⟩) := by decide +kernel

/-- V154 of 95_test_vectors.md. -/
theorem test_pc_wraps :
    ran [] { base with pc := 0xFFFF }
      (fun t => (t.pc, t.out.cycles)) =
    some (0x0000, some 4) := by decide +kernel

/-- AND A,A leaves `a` (43_ext_alu8.md R134). -/
theorem test_andAR8 :
    ran [0xA7] { base with a := 0x5A } (fun t => (t.a, t.f, t.pc, t.out.cycles)) =
    some (0x5A, 0x20, 0xC001, some 4) := by decide +kernel

/-- The thirteen unrecognized bytes (V135 to V137, 30_encoding.md R71): the fault is latched, nothing is
counted or returned. -/
theorem test_illegal_latches :
    (unassigned.all fun op =>
      ran [op] base (fun t => (t.fault, t.pc, t.opCount, t.out.cycles)) ==
        some (some ⟨.unknownOpcode ⟨false, op⟩, 0xC000⟩, 0xC000, 0, none)) = true := by
  decide +kernel

/-- The delayed enable at the end of the step after EI (40_source_named.md R80, its example). -/
theorem test_ei_delay :
    ran [0x3C] { base with imePending := true } (fun t => (t.ime, t.imePending)) =
    some (true, false) := by decide +kernel

/-- EI in the step after EI: the enable comes at the end of the second (V35). -/
theorem test_ei_ei :
    ran [0xFB] { base with imePending := true } (fun t => (t.ime, t.imePending)) =
    some (true, false) := by decide +kernel

/-- DI in the step after EI cancels the enable (V34). -/
theorem test_ei_di :
    ran [0xF3] { base with imePending := true } (fun t => (t.ime, t.imePending)) =
    some (false, false) := by decide +kernel

/-- Bits 5 to 7 of IE and IF request nothing (V157). -/
theorem test_pending_high_bits :
    ran [0x00] (poked { base with ime := true } [(0xFFFF, 0xE0), (0xFF0F, 0xE0)])
      (fun t => (t.pc, t.ime)) = some (0xC001, true) := by decide +kernel

/-- The `advance` after the store that switches the display on already counts (P4, step 2). -/
theorem test_display_on_counts_at_once :
    ran [0xE0, 0x40] { base with a := 0x80 } (fun t => t.ppu) = some ⟨.hblank, 0, 12⟩ := by
  decide +kernel

/-- A boot ROM hides the first page of the cartridge until `disable_boot` (P5). -/
theorem test_boot_overlay :
    let s : State := { State.reset with
      bootMapped := true,
      launch := { Launch.default with bootPresent := true, bootRom := [(0, 0x31)], cart := [(0, 0x76)] } }
    s.busRead 0x0000 = some 0x31 ∧ s.disableBoot.busRead 0x0000 = some 0x76 ∧
      s.busWrite 0x0000 0x00 = none := by decide +kernel

/-- Where a table word is placed and that the next step runs it. -/
theorem test_withFetchWord :
    decodeTableWord 24 0xC010CD = some (.callN16 0xC010) ∧
      decodeTableWord 16 0x7CCB = some (.bitBR8 7 .h) ∧
      (match step (State.reset.withFetchWord 24 0xC010CD) with
        | .next t => some (t.pc, t.busRead 0xFFFD, t.busRead 0xFFFC)
        | .fault _ => none
        | .refused _ => none) = some (0xC010, some 0x01, some 0x03) := by decide +kernel

/-! ### Witnesses: a concrete state and operands that meet the hypotheses of each statement -/

/-- The result is a next state with the property. -/
def endsIn (r : Result) (p : State → Bool) : Bool :=
  match r with
  | .next t => p t
  | .fault _ => false
  | .refused _ => false

theorem exists_of_endsIn {r : Result} {p : State → Bool} (h : endsIn r p = true) :
    ∃ t, r = .next t ∧ p t = true := by
  cases r with
  | next t => exact ⟨t, rfl, h⟩
  | fault _ => simp [endsIn] at h
  | refused _ => simp [endsIn] at h

/-- A next state without a latched fault. -/
theorem completes_of {r : Result} (h : endsIn r (fun t => t.fault == none) = true) :
    ∃ t, r = .next t ∧ t.fault = none := by
  obtain ⟨t, ht, hp⟩ := exists_of_endsIn h
  exact ⟨t, ht, by simpa using hp⟩

/-- A next state with a latched fault. -/
theorem raises_of {r : Result} (h : endsIn r (fun t => t.fault != none) = true) :
    ∃ t, r = .next t ∧ t.fault ≠ none := by
  obtain ⟨t, ht, hp⟩ := exists_of_endsIn h
  exact ⟨t, ht, by simpa using hp⟩

/-- The base state with the bytes at `pc`. -/
def code (bs : List Byte) : State := base.plantAll base.pc bs

/-- The base state with `HL` at an address. -/
def atHl (w : Word) : State := base.setHl w

/-- The base state with an interrupt requested, enabled and not masked. -/
def requesting : State := poked { code [0x00] with ime := true } [(0xFFFF, 0x03), (0xFF0F, 0x03)]

/-- The base state with the display on. -/
def shown : State := base.plant 0xFF40 0x80

theorem turn_of_running {s : State} (hf : s.fault = none) (hp : s.hostPlan = []) : CpuTurn s :=
  ⟨hf, .inl hp⟩

theorem witness_ResetValues :
    Launch.default.initMem = .zero ∧ writable 0x8000 = true ∧ writable 0xFFFF = true := by
  decide +kernel

theorem witness_ResetSatisfiesInvariant :
    Launch.default.wf = true ∧
      ({ Launch.default with bootPresent := true, bootRom := [(0xFF, 0x31)], cartLen := 0 } : Launch).wf =
        true := by
  decide +kernel

theorem witness_StepKeepsInvariant : State.reset.Inv ∧ ∃ t, step State.reset = .next t ∧ t.fault = none :=
  ⟨by decide +kernel, completes_of (by decide +kernel)⟩

theorem witness_StepKeepsInvariant_raise :
    ({ base with pc := 0xFE00 } : State).Inv ∧
      ∃ t, step { base with pc := 0xFE00 } = .next t ∧ t.fault ≠ none :=
  ⟨by decide +kernel, raises_of (by decide +kernel)⟩

theorem witness_DecodeEncodeRoundTrip :
    (Instr.callN16 0xC010).wellFormed = true ∧ (Instr.ldRR .a .b).wellFormed = true := by
  decide +kernel

theorem witness_DecodedBytesAreTheEncoding :
    decode [0xCD, 0x10, 0xC0, 0x00] = .ok (.callN16 0xC010, [0x00]) := by decide +kernel

/-- LD (0xC100),A with a delayed enable due and the host's next move the loop. -/
def storing (hi : Byte) : State :=
  { code [0xEA, 0x00, hi] with imePending := true, hostPlan := [.run] }

theorem witness_StepRunsDecodedInstruction :
    CpuTurn (storing 0xC1) ∧ (storing 0xC1).pending = none ∧ (Instr.ldN16A 0xC100).wellFormed = true ∧
      (Instr.ldN16A 0xC100).key.recognized (storing 0xC1).launch.dispatchExt = true ∧
      HoldsAt (storing 0xC1) (storing 0xC1).pc (.ldN16A 0xC100) ∧
      ∃ t, exec (.ldN16A 0xC100) (begun (storing 0xC1)) = .next t ∧ t.fault = none :=
  ⟨⟨by decide +kernel, .inr ⟨[], by decide +kernel⟩⟩, by decide +kernel, by decide +kernel,
    by decide +kernel, by unfold HoldsAt; decide +kernel, completes_of (by decide +kernel)⟩

theorem witness_StepRunsDecodedInstruction_raise :
    CpuTurn (storing 0x20) ∧ HoldsAt (storing 0x20) (storing 0x20).pc (.ldN16A 0x2000) ∧
      ∃ t, exec (.ldN16A 0x2000) (begun (storing 0x20)) = .next t ∧ t.fault ≠ none :=
  ⟨⟨by decide +kernel, .inr ⟨[], by decide +kernel⟩⟩, by unfold HoldsAt; decide +kernel,
    raises_of (by decide +kernel)⟩

/-- The three cases of a push: both writes land, the first is fatal, the second is fatal
(PushAndPop, Calls, TakingAnInterrupt, StepTakesPendingInterrupt). -/
theorem witness_AfterPush :
    (writable ((0xFFFE : Word) - 1) = true ∧ writable ((0xFFFE : Word) - 2) = true) ∧
      writable ((0x0001 : Word) - 1) = false ∧
      (writable ((0x8001 : Word) - 1) = true ∧ writable ((0x8001 : Word) - 2) = false) := by
  decide +kernel

/-- The three cases of a pop: both reads land, the first is fatal, the second is fatal
(PushAndPop, Returns). -/
theorem witness_AfterPop :
    (base.readable 0xFFFC = true ∧ base.readable (0xFFFC + 1) = true) ∧ base.readable 0xFE00 = false ∧
      (base.readable 0xFDFF = true ∧ base.readable (0xFDFF + 1) = false) := by
  decide +kernel

/-- The state at the handler, after the two writes of the push. -/
def atHandler (s : State) : State :=
  { poked (begun s) [(0xFFFD, 0xC0), (0xFFFC, 0x00)] with sp := 0xFFFC, pc := 0x0040, ime := false }

/-- The state at a handler that begins with the byte `first`. -/
def handler (first : Byte) : State := atHandler (requesting.plant 0x0040 first)

/-- The requesting state with a cartridge that ends with the bytes `bs` from the vector on. -/
def requestingEnding (bs : List Byte) : State :=
  ({ requesting with launch := { requesting.launch with cartLen := 0x40 } } : State).plantAll 0x0040 bs

/-- The state at its handler. -/
def handlerEnding (bs : List Byte) : State := atHandler (requestingEnding bs)

theorem witness_StepTakesPendingInterrupt :
    CpuTurn requesting ∧ requesting.pending = some (0, 0x0040) ∧
      writable (requesting.sp - 1) = true ∧ writable (requesting.sp - 2) = true ∧
      HoldsAt (handler 0xAF) 0x0040 (.xorAR8 .a) ∧
      (Instr.xorAR8 .a).key.recognized requesting.launch.dispatchExt = true ∧
      KeyAt (handler 0xD3) 0x0040 ⟨false, 0xD3⟩ ∧ (⟨false, 0xD3⟩ : Key).recognized true = false :=
  ⟨turn_of_running (by decide +kernel) (by decide +kernel), by decide +kernel, by decide +kernel,
    by decide +kernel, by unfold HoldsAt; decide +kernel, by decide +kernel,
    ⟨by decide +kernel, by decide +kernel⟩, by decide +kernel⟩

/-- At the vector: nothing to read, a prefix with nothing after it, an operand byte missing. -/
theorem witness_StepTakesPendingInterrupt_fetch :
    (CpuTurn (requestingEnding []) ∧ (requestingEnding []).pending = some (0, 0x0040) ∧
        (handlerEnding []).readable 0x0040 = false) ∧
      ((handlerEnding [0xCB]).busRead 0x0040 = some 0xCB ∧
        (handlerEnding [0xCB]).readable (0x0040 + 1) = false) ∧
      ((handlerEnding [0x3E]).busRead 0x0040 = some (Instr.ldRN8 .a 0x00).key.opcode ∧
        2 ≤ (Instr.ldRN8 .a 0x00).length ∧ (handlerEnding [0x3E]).readable (0x0040 + 1) = false) ∧
      ((handlerEnding [0xCD, 0x10]).busRead 0x0040 = some (Instr.callN16 0x0010).key.opcode ∧
        (Instr.callN16 0x0010).length = 3 ∧ (handlerEnding [0xCD, 0x10]).readable (0x0040 + 1) = true ∧
        (handlerEnding [0xCD, 0x10]).readable (0x0040 + 2) = false) := by
  refine ⟨⟨turn_of_running ?_ ?_, ?_, ?_⟩, ?_, ?_, ?_⟩ <;> decide +kernel

theorem test_dispatch_then_fetch_raises :
    ∃ t, step (requestingEnding []) = .next t ∧ t.fault = some ⟨.unmappedAddress 0x0040, 0x0040⟩ ∧
      t.sp = (requestingEnding []).sp - 2 ∧ t.ime = false :=
  ⟨_, rfl, by decide +kernel, by decide +kernel, by decide +kernel⟩

theorem witness_TakingAnInterrupt :
    base.launch.ackClearsIf = false ∧
      ({ base.launch with ackClearsIf := true } : Launch).ackClearsIf = true ∧
      writable (base.sp - 1) = true ∧ writable (base.sp - 2) = true := by
  decide +kernel

theorem witness_UnrecognizedOpcodeIsFatal :
    CpuTurn (code [0x76]) ∧ (code [0x76]).pending = none ∧ KeyAt (code [0x76]) (code [0x76]).pc ⟨false, 0x76⟩ ∧
      (⟨false, 0x76⟩ : Key).recognized (code [0x76]).launch.dispatchExt = false ∧
      KeyAt (code [0xCB, 0x00]) (code [0xCB, 0x00]).pc ⟨true, 0x00⟩ ∧
      (⟨true, 0x00⟩ : Key).recognized false = false ∧ (0x76 : Byte) ≠ 0xCB :=
  ⟨turn_of_running (by decide +kernel) (by decide +kernel), by decide +kernel,
    ⟨by decide +kernel, by decide +kernel⟩, by decide +kernel, ⟨by decide +kernel, by decide +kernel⟩,
    by decide +kernel, by decide +kernel⟩

theorem witness_LatchedFaultHasNoStep :
    ({ base with fault := some ⟨.unmappedAddress 0xFE00, 0xC000⟩ } : State).fault =
        some ⟨.unmappedAddress 0xFE00, 0xC000⟩ ∧
      ∃ t, step base = .next t ∧ t.fault = none :=
  ⟨rfl, completes_of (by decide +kernel)⟩

theorem witness_ExecuteFaultIsPrecise :
    (atHl 0x7FFF).fault = none ∧
      (∃ t, exec (.ldHlR .b) (atHl 0x7FFF) = .next t ∧ t.fault ≠ none) ∧
      ∃ t, exec .illegalFD base = .next t ∧ t.fault ≠ none :=
  ⟨rfl, raises_of (by decide +kernel), raises_of (by decide +kernel)⟩

/-- Work RAM through its echo just below the unmapped range, with the bytes before 0xFE00. -/
def edge (bs : List Byte) : State :=
  { base.plantAll (0xFE00 - BitVec.ofNat 16 bs.length) bs with
    pc := 0xFE00 - BitVec.ofNat 16 bs.length }

theorem witness_FetchFaultIsLatched :
    (CpuTurn (edge []) ∧ (edge []).pending = none ∧ (edge []).readable (edge []).pc = false) ∧
      ((edge [0xCB]).busRead (edge [0xCB]).pc = some 0xCB ∧
        (edge [0xCB]).readable ((edge [0xCB]).pc + 1) = false) ∧
      ((edge [0x3E]).busRead (edge [0x3E]).pc = some (Instr.ldRN8 .a 0x00).key.opcode ∧
        2 ≤ (Instr.ldRN8 .a 0x00).length ∧ (edge [0x3E]).readable ((edge [0x3E]).pc + 1) = false) ∧
      ((edge [0xCD, 0x10]).busRead (edge [0xCD, 0x10]).pc = some (Instr.callN16 0x0010).key.opcode ∧
        (Instr.callN16 0x0010).length = 3 ∧
        (edge [0xCD, 0x10]).readable ((edge [0xCD, 0x10]).pc + 1) = true ∧
        (edge [0xCD, 0x10]).readable ((edge [0xCD, 0x10]).pc + 2) = false) := by
  refine ⟨⟨turn_of_running ?_ ?_, ?_, ?_⟩, ?_, ?_, ?_⟩ <;> decide +kernel

theorem witness_CyclesAndOperationCount :
    CpuTurn base ∧ base.launch.costs = [] ∧ (∃ t, step base = .next t ∧ t.fault = none) ∧
      CpuTurn (edge []) ∧ ∃ t, step (edge []) = .next t ∧ t.fault ≠ none :=
  ⟨turn_of_running rfl rfl, rfl, completes_of (by decide +kernel),
    turn_of_running (by decide +kernel) (by decide +kernel), raises_of (by decide +kernel)⟩

/-- The base state with a pending enable or not, and the bytes at `pc`. -/
def armed (arm : Bool) (bs : List Byte) : State := { code bs with imePending := arm }

theorem witness_MasterEnableStateMachine :
    (CpuTurn (armed true [0xF3]) ∧ (armed true [0xF3]).pending = none ∧
      HoldsAt (armed true [0xF3]) 0xC000 .di ∧ ∃ t, step (armed true [0xF3]) = .next t ∧ t.fault = none) ∧
    (HoldsAt (armed true [0x00]) 0xC000 .nop ∧ ∃ t, step (armed true [0x00]) = .next t ∧ t.fault = none) ∧
    (HoldsAt (armed false [0xD9]) 0xC000 .reti ∧ ∃ t, step (armed false [0xD9]) = .next t ∧ t.fault = none) ∧
    (HoldsAt (armed false [0xFB]) 0xC000 .ei ∧ ∃ t, step (armed false [0xFB]) = .next t ∧ t.fault = none) ∧
    (CpuTurn requesting ∧ requesting.pending = some (0, 0x0040) ∧
      ∃ t, step requesting = .next t ∧ t.fault = none) := by
  refine ⟨⟨turn_of_running ?_ ?_, ?_, ?_, completes_of ?_⟩, ⟨?_, completes_of ?_⟩, ⟨?_, completes_of ?_⟩,
    ⟨?_, completes_of ?_⟩, turn_of_running ?_ ?_, ?_, completes_of ?_⟩ <;>
    first
    | decide +kernel
    | (unfold HoldsAt; decide +kernel)

theorem witness_PendingIsLowestEnabledRequest :
    requesting.pending = some (0, 0x0040) ∧ base.pending = none ∧
      (poked { base with ime := true } [(0xFFFF, 0x10), (0xFF0F, 0x1F)]).pending = some (4, 0x0060) := by
  decide +kernel

/-- A machine with a boot ROM, and a plan of the host. -/
def booting (plan : List HostMove) (length : Nat) : State :=
  { State.ofLaunch { Launch.default with bootPresent := true, cartLen := length } with hostPlan := plan }

theorem witness_BootRomUnmappedOnlyByHost :
    ((booting [.disableBoot] 0x8000).fault = none ∧
      (booting [.disableBoot] 0x8000).hostPlan = .disableBoot :: []) ∧
    (State.reset.bootMapped = false ∧ (0x00FF : Word).toNat ≤ 0xFF ∧ 0x00FF < State.reset.launch.cartLen) ∧
    ((booting [] 0x00FF).disableBoot.bootMapped = false ∧
      ¬ (0x00FF : Word).toNat < (booting [] 0x00FF).disableBoot.launch.cartLen) ∧
    ((∃ t, step (booting [.run] 0x8000) = .next t ∧ t.fault = none) ∧
      ∀ plan, (booting [.run] 0x8000).hostPlan ≠ .disableBoot :: plan) ∧
    ∃ t, (booting [] 0x8000).busWrite 0x8000 0x01 = some t :=
  ⟨by decide +kernel, by decide +kernel, by decide +kernel,
    ⟨completes_of (by decide +kernel), by simp [booting]⟩,
    Option.isSome_iff_exists.mp (by decide +kernel)⟩

theorem witness_HostWritesOnlyInputCell :
    let s : State := { base with hostPlan := [.writeInput 0xCF] }
    let s' : State := { s with launch := { s.launch with hostWrites := true } }
    s.fault = none ∧ s.hostPlan = .writeInput 0xCF :: [] ∧ s.launch.hostWrites = false ∧
      s'.fault = none ∧ s'.hostPlan = .writeInput 0xCF :: [] ∧ s'.launch.hostWrites = true ∧
      (0xFF01 : Word) ≠ 0xFF00 := by
  decide +kernel

theorem witness_LaunchAndRomNeverChange :
    (∃ t, step base = .next t ∧ (t.bootMapped == base.bootMapped) = true) ∧
      (0x0000 : Word).toNat < 0x8000 ∧ (0x7FFF : Word).toNat < 0x8000 :=
  ⟨exists_of_endsIn (by decide +kernel), by decide +kernel, by decide +kernel⟩

theorem witness_MemoryIsItsWrites :
    CpuTurn (code [0xF5]) ∧ ∃ t, step (code [0xF5]) = .next t ∧ (t.out.writes.length == 2) = true :=
  ⟨turn_of_running (by decide +kernel) (by decide +kernel), exists_of_endsIn (by decide +kernel)⟩

theorem witness_StepIsTotal : base.fault = none := rfl

/-- The boundary addresses of the write regions. -/
theorem witness_WriteStoresExactlyOneByte :
    (writable 0x7FFF = false ∧ writable 0xFE00 = false ∧ writable 0xFEFF = false) ∧
      writable 0x8000 = true ∧ writable 0xFDFF = true ∧ writable 0xFF00 = true ∧ writable 0xFFFF = true := by
  decide +kernel

theorem witness_EchoIsTheOnlyAlias :
    base.route 0xDDFF ≠ .unmapped ∧ 0xC000 ≤ (0xDDFF : Word).toNat ∧ (0xDDFF : Word).toNat ≤ 0xDDFF ∧
      base.route 0xDDFF = base.route (0xDDFF + 0x2000) ∧
      (base.busWrite 0xC000 0x5C).isSome = true ∧ (base.busWrite (0xC000 + 0x2000) 0x5C).isSome = true := by
  decide +kernel

theorem witness_FatalAccesses :
    base.busRead 0xFE00 = none ∧ base.busRead 0xFEFF = none ∧ (booting [] 0x4000).busRead 0x4000 = none ∧
      base.busWrite 0x7FFF 0x00 = none := by
  decide +kernel

/-- The first and last address of each row of the region table, as each clause has it. -/
theorem witness_RegionTable :
    ((0x00FF : Word).toNat ≤ 0x00FF ∧ (booting [] 0x8000).bootMapped = true) ∧
    ((0x7FFF : Word).toNat ≤ 0x7FFF ∧ base.bootMapped = false ∧ (0x7FFF : Word).toNat < base.launch.cartLen) ∧
    (0x0100 ≤ (0x0100 : Word).toNat ∧ (0x0100 : Word).toNat < (booting [] 0x8000).launch.cartLen) ∧
    (0x8000 ≤ (0x9FFF : Word).toNat ∧ (0x9FFF : Word).toNat ≤ 0x9FFF) ∧
    (0xA000 ≤ (0xBFFF : Word).toNat ∧ (0xBFFF : Word).toNat ≤ 0xBFFF) ∧
    (0xC000 ≤ (0xDFFF : Word).toNat ∧ (0xDFFF : Word).toNat ≤ 0xDFFF) ∧
    (0xE000 ≤ (0xFDFF : Word).toNat ∧ (0xFDFF : Word).toNat ≤ 0xFDFF) ∧
    (0xFE00 ≤ (0xFEFF : Word).toNat ∧ (0xFEFF : Word).toNat ≤ 0xFEFF) ∧ (0xFF00 : Word).toNat = 0xFF00 ∧
    (0xFF01 ≤ (0xFF7F : Word).toNat ∧ (0xFF7F : Word).toNat ≤ 0xFF7F) ∧
    (0xFF80 ≤ (0xFFFE : Word).toNat ∧ (0xFFFE : Word).toNat ≤ 0xFFFE) ∧ (0xFFFF : Word).toNat = 0xFFFF := by
  decide +kernel

/-- A range of two addresses in one store, and one whose second address is unmapped. -/
theorem witness_ReadRange :
    ((0x9FFE : Word) ≤ 0x9FFF ∧ base.readable 0x9FFE = true ∧ base.readable 0x9FFF = true ∧
      (base.route 0x9FFF).store = (base.route 0x9FFE).store) ∧
    ((0xFDFF : Word) ≤ 0xFE00 ∧ base.readable 0xFE00 = false ∧ base.readable 0xFDFF = true ∧
      (base.route 0xFDFF).store = (base.route 0xFDFF).store) ∧
    base.readRange 0x9FFE 0x9FFF = .ok [0x00, 0x00] ∧ base.readRange 0xFDFF 0xFE00 = .error 0xFE00 := by
  decide +kernel

theorem witness_DumpShowsFaultedState :
    let s : State := { base with launch := { base.launch with dumpDepth := 2, dumpVramOffset := 0x1FFE } }
    1 < s.launch.dumpDepth ∧ s.launch.dumpVramOffset + 1 < 0x2000 := by
  decide +kernel

/-- The display is on in `shown`, and `Advances` then speaks of the state with any video state in it
(VideoTick, AdvanceComposes, ScanlineTiming). -/
theorem witness_DisplayOn : DisplayOn shown ∧ ¬ DisplayOn base :=
  ⟨⟨0x80, by decide +kernel, by decide +kernel⟩, by
    rintro ⟨v, hv, hb⟩
    have h0 : base.busRead 0xFF40 = some 0x00 := by decide +kernel
    rw [h0] at hv
    obtain rfl := Option.some.inj hv
    exact absurd hb (by decide +kernel)⟩

theorem witness_ScanlineTiming :
    (143 < 144 ∧ 455 < 456) ∧ (144 ≤ 144 ∧ 153 ≤ 153) ∧ DisplayOn shown ∧ shown.ppu = ⟨.hblank, 0, 0⟩ :=
  ⟨by decide, by decide, witness_DisplayOn.1, by decide +kernel⟩

theorem witness_RegisterLoads : R8.a ≠ .mhl ∧ R8.b ≠ .mhl := by decide

theorem witness_LoadsFromMemory :
    R8.a ≠ .mhl ∧ (atHl 0x8000).readable (atHl 0x8000).hl = true ∧
      (atHl 0xFE00).readable (atHl 0xFE00).hl = false ∧
      ({ base with b := 0xFE } : State).readable ({ base with b := 0xFE } : State).bc = false ∧
      ({ base with d := 0xFE } : State).readable ({ base with d := 0xFE } : State).de = false ∧
      base.readable base.bc = true ∧ base.readable base.de = true ∧ base.readable 0xFEFF = false ∧
      base.readable 0xFFFF = true := by
  decide +kernel

theorem witness_StoresToMemory :
    R8.a ≠ .mhl ∧ writable (atHl 0x8000).hl = true ∧ writable (atHl 0x7FFF).hl = false ∧
      writable base.bc = false ∧ writable base.de = false ∧
      writable ({ base with b := 0xC0 } : State).bc = true ∧
      writable ({ base with d := 0xC0 } : State).de = true ∧ writable 0xFF00 = true ∧
      writable 0xFEFF = false := by
  decide +kernel

theorem witness_SixteenBitLoads :
    writable 0xFEFF = false ∧ (writable 0xFDFF = true ∧ writable (0xFDFF + 1) = false) ∧
      (writable 0xFFFF = true ∧ writable (0xFFFF + 1) = false) ∧
      writable 0xDFFF = true ∧ writable (0xDFFF + 1) = true := by
  decide +kernel

theorem witness_PushThenPopRestores :
    base.fault = none ∧ LowNibbleZero base ∧ ∃ t, exec (.pushRr .af) base = .next t ∧ t.fault = none :=
  ⟨rfl, by unfold LowNibbleZero; decide +kernel, completes_of (by decide +kernel)⟩

/-- Each condition is true in one of the base state and the state with no flag, false in the other
(Jumps, Calls, Returns). -/
theorem witness_conditions :
    let s : State := { base with f := 0x00 }
    condHolds base .z = true ∧ condHolds base .c = true ∧ condHolds base .nz = false ∧
      condHolds base .nc = false ∧ condHolds s .z = false ∧ condHolds s .c = false ∧
      condHolds s .nz = true ∧ condHolds s .nc = true := by
  decide +kernel

theorem witness_Calls :
    condHolds base .z = true ∧ condHolds base .nz = false ∧ writable (base.sp - 1) = true ∧
      writable (base.sp - 2) = true := by
  decide +kernel

theorem witness_Returns :
    condHolds base .z = true ∧ condHolds base .nz = false ∧
      (base.setSp 0xFFFC).readable 0xFFFC = true ∧ (base.setSp 0xFFFC).readable (0xFFFC + 1) = true := by
  decide +kernel

theorem witness_CallThenReturn :
    base.fault = none ∧ condHolds base .c = true ∧
      (∃ t, exec (.callN16 0xC100) base = .next t ∧ t.fault = none) ∧
      (∃ t, exec (.callCcN16 .c 0xC100) base = .next t ∧ t.fault = none) ∧
      ∃ t, exec (.rstT 7) base = .next t ∧ t.fault = none :=
  ⟨rfl, by decide +kernel, completes_of (by decide +kernel), completes_of (by decide +kernel),
    completes_of (by decide +kernel)⟩

/-- The operand `(HL)` can be read, and cannot (Additions, SubtractionsAndCompare, Logic, BitTest). -/
theorem witness_UsesOperand :
    (atHl 0xC100).readable (atHl 0xC100).hl = true ∧ (atHl 0xFE00).readable (atHl 0xFE00).hl = false := by
  decide +kernel

/-- The operand `(HL)` can be read and written, only read, or neither (IncrementAndDecrement,
PrefixedRotatesAndShifts, BitClearAndSet). -/
theorem witness_ModifiesOperand :
    ((atHl 0xC100).readable (atHl 0xC100).hl = true ∧ writable (atHl 0xC100).hl = true) ∧
      ((atHl 0x0150).readable (atHl 0x0150).hl = true ∧ writable (atHl 0x0150).hl = false) ∧
      (atHl 0xFE00).readable (atHl 0xFE00).hl = false ∧ R8.b ≠ .mhl := by
  decide +kernel

/-- The low four bits of `f` are zero in the base state (IncrementAndDecrement, DecimalAdjust,
FlagAdjustments, SixteenBitArithmetic, BitTest). -/
theorem witness_LowNibbleZero : LowNibbleZero base := by unfold LowNibbleZero; decide +kernel

theorem witness_IncrementAndDecrement :
    LowNibbleZero (atHl 0xC100) ∧ (atHl 0xC100).readable (atHl 0xC100).hl = true ∧
      writable (atHl 0xC100).hl = true :=
  ⟨by unfold LowNibbleZero; decide +kernel, by decide +kernel, by decide +kernel⟩

theorem witness_DecimalAdjustCorrects :
    (99 < 100 ∧ (0 : Nat) < 100) ∧ ({ base with a := 0x99 } : State).a = bcd 99 ∧
      (∃ t, exec (.adcAN8 (bcd 0)) { base with a := 0x99 } = .next t ∧ t.fault = none) ∧
      ∃ t, exec (.sbcAN8 (bcd 0)) { base with a := 0x99 } = .next t ∧ t.fault = none :=
  ⟨by decide, by decide +kernel, completes_of (by decide +kernel), completes_of (by decide +kernel)⟩

theorem witness_SixteenBitArithmetic :
    LowNibbleZero base ∧ Instr.decRr .sp = .decRr .sp ∧ (0xFFFF : Word) = 0xFFFF :=
  ⟨witness_LowNibbleZero, rfl, rfl⟩

/-- An instruction that names few destinations and no flag, and one that stores. -/
theorem witness_RegisterFrame :
    (∃ t, exec (.ldRN8 .b 0x12) base = .next t ∧ t.fault = none) ∧ Reg.c ≠ .f ∧
      Reg.c ∉ (Instr.ldRN8 .b 0x12).dests ∧ (Instr.ldRN8 .b 0x12).writesSp = false :=
  ⟨completes_of (by decide +kernel), by decide, by decide, by decide⟩

theorem witness_FlagFrame :
    (∃ t, exec (.incR8 .b) base = .next t ∧ t.fault = none) ∧
      (Instr.incR8 .b).flagsWritten.c = false ∧ (Instr.cpl).flagsWritten.z = false ∧
      (Instr.daa).flagsWritten.n = false ∧ (Instr.nop).flagsWritten.h = false ∧
      (Instr.nop).flagsWritten = ⟨false, false, false, false⟩ ∧ LowNibbleZero base :=
  ⟨completes_of (by decide +kernel), by decide, by decide, by decide, by decide, by decide,
    witness_LowNibbleZero⟩

theorem witness_MemoryFrame :
    base.fault = none ∧ (∃ t, exec (.pushRr .bc) base = .next t ∧ t.fault = none) ∧
      (∀ x ∈ (Instr.pushRr .bc).storeAddrs base, base.route 0xFFFB ≠ base.route x) ∧
      (Instr.cpAR8 .b).storeAddrs base = [] := by
  refine ⟨rfl, completes_of (by decide +kernel), ?_, by decide +kernel⟩
  have h : (Instr.pushRr .bc).storeAddrs base = [0xFFFD, 0xFFFC] := by decide +kernel
  rw [h]
  intro x hx
  rcases List.mem_cons.mp hx with rfl | hx
  · decide +kernel
  · obtain rfl := List.mem_singleton.mp hx
    decide +kernel

theorem witness_SystemFrame :
    (∃ t, exec .ei base = .next t ∧ t.fault = none) ∧ Instr.ei ≠ .di ∧ Instr.ei ≠ .reti ∧
      Instr.nop ≠ .ei ∧ Instr.nop ≠ .di ∧ Instr.nop ≠ .reti :=
  ⟨completes_of (by decide +kernel), by decide, by decide, by decide, by decide, by decide⟩


end Sys2Proof.Tests
end

section
/-! The one case split over the instructions: everything `exec` does is a chain of updates that the
instruction's rule names. Frames and invariants are inductions over that chain. -/

namespace Sys2Proof

open Machine

/-- What a rule may write besides the bus, `pc` and the fault latch. -/
structure Machine.Writes where
  regs : List Reg
  sp : Bool
  flags : Flags
  pending : Bool
  master : Bool

/-- The destinations, `sp` and flags of the instruction's rule, the pending enable for EI
(40_source_named.md R80), the master enable for DI and RETI (R81, 46_ext_control.md R176). -/
def Instr.writes (i : Instr) : Writes where
  regs := i.dests
  sp := i.writesSp
  flags := i.flagsWritten
  pending := i == .ei
  master := i == .di || i == .reti

/-- What taking an interrupt may write (60_exceptions.md R214). -/
def Machine.Writes.service : Writes where
  regs := []
  sp := true
  flags := ⟨false, false, false, false⟩
  pending := false
  master := true

end Sys2Proof

namespace Sys2Proof.Machine

/-- `new` agrees with `old` in every flag that `written` does not name (10_state.md R13). -/
def Flags.Keeps (written old new : Flags) : Prop :=
  (written.z = false → new.z = old.z) ∧ (written.n = false → new.n = old.n) ∧
  (written.h = false → new.h = old.h) ∧ (written.c = false → new.c = old.c)

section

variable (old : Flags) (z n h c : Bool)

theorem Flags.keeps_carry : Flags.Keeps ⟨true, true, true, false⟩ old ⟨z, n, h, old.c⟩ :=
  ⟨nofun, nofun, nofun, fun _ => rfl⟩

theorem Flags.keeps_zero : Flags.Keeps ⟨false, true, true, true⟩ old ⟨old.z, n, h, c⟩ :=
  ⟨fun _ => rfl, nofun, nofun, nofun⟩

theorem Flags.keeps_subtract : Flags.Keeps ⟨true, false, true, true⟩ old ⟨z, old.n, h, c⟩ :=
  ⟨nofun, fun _ => rfl, nofun, nofun⟩

theorem Flags.keeps_zero_carry : Flags.Keeps ⟨false, true, true, false⟩ old ⟨old.z, n, h, old.c⟩ :=
  ⟨fun _ => rfl, nofun, nofun, fun _ => rfl⟩

theorem Flags.keeps_none (new : Flags) : Flags.Keeps ⟨true, true, true, true⟩ old new :=
  ⟨nofun, nofun, nofun, nofun⟩

end

/-- The masked byte is the packed byte of its four flags (10_state.md R12). -/
theorem mask_eq_pack (v : Byte) :
    v &&& 0xF0 = Flags.pack ⟨v.getLsbD 7, v.getLsbD 6, v.getLsbD 5, v.getLsbD 4⟩ := by
  revert v; decide

/-- `t` comes from `s` by updates that `w` allows: of `pc`, the latch and the bus, and of the
registers, flags and enables that `w` names. -/
inductive WritesOnly (w : Writes) (s : State) : State → Prop
  | start : WritesOnly w s s
  | pc {u : State} (x : Word) : WritesOnly w s u → WritesOnly w s (u.setPc x)
  | raise {u : State} (k : FaultKind) : WritesOnly w s u → WritesOnly w s (u.raise k)
  | stored {u : State} {m : Stores} {a : Word} {v : Byte} :
      u.mem.put (u.route a) v = some m → WritesOnly w s u → WritesOnly w s (u.stored m a v)
  | sp {u : State} (x : Word) : w.sp = true → WritesOnly w s u → WritesOnly w s (u.setSp x)
  | reg {u : State} (q : Reg) (v : Byte) :
      q ∈ w.regs → q ≠ .f → WritesOnly w s u → WritesOnly w s (u.setReg q v)
  | flags {u : State} {fl : Flags} :
      w.flags ≠ ⟨false, false, false, false⟩ → w.flags.Keeps s.flags fl →
      WritesOnly w s u → WritesOnly w s (u.setFlags fl)
  | pending {u : State} :
      w.pending = true → WritesOnly w s u → WritesOnly w s { u with imePending := true }
  | master {u : State} (on : Bool) :
      w.master = true → WritesOnly w s u → WritesOnly w s (u.setMasterEnable on)

/-! ### The shared operations -/

/-- A branch has the property when both its arms have. -/
theorem ensures_ite {P : State → Prop} {c : Prop} [Decidable c] {r r' : Result} (h : Ensures P r)
    (h' : Ensures P r') : Ensures P (if c then r else r') := by
  split
  · exact h
  · exact h'

namespace WritesOnly

variable {w : Writes} {s u : State}

theorem bus {t : State} {a : Word} {v : Byte} (hu : WritesOnly w s u) (h : u.busWrite a v = some t) :
    WritesOnly w s t := by
  obtain ⟨m, hput, rfl⟩ := State.busWrite_eq_some h
  exact hu.stored hput

/-- The end of a rule: `pc` moves past the instruction. -/
theorem next_bumpPc (hu : WritesOnly w s u) (k : Word) :
    Ensures (WritesOnly w s) (.next (u.bumpPc k)) :=
  (ensures_next _ _).mpr (hu.pc _)

/-- The end of a transfer: `pc` is the target. -/
theorem next_setPc (hu : WritesOnly w s u) (x : Word) :
    Ensures (WritesOnly w s) (.next (u.setPc x)) :=
  (ensures_next _ _).mpr (hu.pc x)

theorem setBc (hu : WritesOnly w s u) (x : Word) (hd : [.b, .c] ⊆ w.regs) :
    WritesOnly w s (u.setBc x) :=
  (hu.reg .b (hi8 x) (hd (by decide)) nofun).reg .c (lo8 x) (hd (by decide)) nofun

theorem setDe (hu : WritesOnly w s u) (x : Word) (hd : [.d, .e] ⊆ w.regs) :
    WritesOnly w s (u.setDe x) :=
  (hu.reg .d (hi8 x) (hd (by decide)) nofun).reg .e (lo8 x) (hd (by decide)) nofun

theorem setHl (hu : WritesOnly w s u) (x : Word) (hd : [.h, .l] ⊆ w.regs) :
    WritesOnly w s (u.setHl x) :=
  (hu.reg .h (hi8 x) (hd (by decide)) nofun).reg .l (lo8 x) (hd (by decide)) nofun

/-- A destination of table SP is the registers of the pair, or `sp`. -/
theorem setPairSp (hu : WritesOnly w s u) (rr : PairSp) (x : Word) (hd : pairSpDests rr ⊆ w.regs)
    (hsp : rr = .sp → w.sp = true) : WritesOnly w s (u.setPairSp rr x) := by
  cases rr with
  | bc => exact hu.setBc x hd
  | de => exact hu.setDe x hd
  | hl => exact hu.setHl x hd
  | sp => exact hu.sp x (hsp rfl)

/-- A destination of table AF is the registers of the pair; AF writes every flag. -/
theorem setPairAf (hu : WritesOnly w s u) (rr : PairAf) (x : Word) (hd : pairAfDests rr ⊆ w.regs)
    (hf : rr = .af → w.flags = ⟨true, true, true, true⟩) : WritesOnly w s (u.setPairAf rr x) := by
  cases rr with
  | bc => exact hu.setBc x hd
  | de => exact hu.setDe x hd
  | hl => exact hu.setHl x hd
  | af =>
    have ha : WritesOnly w s (u.setReg .a (hi8 x)) := hu.reg .a _ (hd (by decide)) nofun
    rw [State.setPairAf, State.setAf, mask_eq_pack]
    exact ha.flags (by simp [hf rfl]) (hf rfl ▸ Flags.keeps_none _ _)

theorem readThen (hu : WritesOnly w s u) (a : Word) {k : Byte → Result}
    (hk : ∀ v, Ensures (WritesOnly w s) (k v)) : Ensures (WritesOnly w s) (readThen u a k) :=
  readThen_ensures (hu.raise _) fun v _ => hk v

theorem writeThen (hu : WritesOnly w s u) (a : Word) (v : Byte) {k : State → Result}
    (hk : ∀ t, WritesOnly w s t → Ensures (WritesOnly w s) (k t)) :
    Ensures (WritesOnly w s) (writeThen u a v k) :=
  writeThen_ensures (hu.raise _) fun t ht => hk t (hu.bus ht)

theorem readR8Then (hu : WritesOnly w s u) (r : R8) {k : Byte → Result}
    (hk : ∀ v, Ensures (WritesOnly w s) (k v)) : Ensures (WritesOnly w s) (readR8Then r u k) :=
  readR8Then_ensures (fun _ => hu.raise _) fun v _ => hk v

theorem writeR8Then (hu : WritesOnly w s u) {r : R8} (hd : R8dests r ⊆ w.regs) (v : Byte)
    {k : State → Result} (hk : ∀ t, WritesOnly w s t → Ensures (WritesOnly w s) (k t)) :
    Ensures (WritesOnly w s) (writeR8Then r v u k) := by
  refine writeR8Then_ensures (fun _ => hu.raise _) (fun q hq => hk _ ?_) fun t _ ht => hk t (hu.bus ht)
  refine hu.reg q v (hd (by simp [hq])) ?_
  rintro rfl
  cases r <;> simp [R8dests] at hq

theorem push16Then (hu : WritesOnly w s u) (hsp : w.sp = true) (x : Word) {k : State → Result}
    (hk : ∀ t, WritesOnly w s t → Ensures (WritesOnly w s) (k t)) :
    Ensures (WritesOnly w s) (push16Then x u k) :=
  (hu.sp _ hsp).writeThen _ _ fun _ ht => (ht.sp _ hsp).writeThen _ _ hk

theorem pop16Then (hu : WritesOnly w s u) (hsp : w.sp = true) {k : Word → State → Result}
    (hk : ∀ x t, WritesOnly w s t → Ensures (WritesOnly w s) (k x t)) :
    Ensures (WritesOnly w s) (pop16Then u k) :=
  hu.readThen _ fun _ => (hu.sp _ hsp).readThen _ fun _ => hk _ _ ((hu.sp _ hsp).sp _ hsp)

/-- Taking an interrupt writes `sp`, the bus, `pc` and the enables (60_exceptions.md R214); a raise
in it ends there. -/
theorem serviceThen_ensures {P : State → Prop} (bit : Nat) (vector : Word) {k : State → Result}
    (hP : ∀ t, WritesOnly .service s t → P t)
    (hk : ∀ t, WritesOnly .service s t → Ensures P (k t)) :
    Ensures P (serviceThen bit vector s k) := by
  have pushed : ∀ x, WritesOnly .service s (s.setSp x) := fun x => start.sp x rfl
  have entered : ∀ t, WritesOnly .service s t →
      Ensures P (k ((t.setPc vector).setMasterEnable false)) :=
    fun t ht => hk _ ((ht.pc vector).master false rfl)
  refine push16Then_ensures (hP _ ((pushed _).raise _))
    (fun u hu => hP _ ((((pushed _).bus hu).sp _ rfl).raise _)) fun u u' hu hu' => ?_
  have hu' : WritesOnly .service s u' := (((pushed _).bus hu).sp _ rfl).bus hu'
  exact ackThen_ensures (fun _ => hP _ (hu'.raise _)) (fun _ => entered u' hu')
    fun t _ ht => entered t (hu'.bus ht)

/-! ### The shapes the meanings share -/

theorem loadA (ha : .a ∈ w.regs) (addr k : Word) : Ensures (WritesOnly w s) (loadA addr k s) :=
  start.readThen _ fun _ => (start.reg .a _ ha nofun).next_bumpPc _

theorem store (addr : Word) (v : Byte) (k : Word) : Ensures (WritesOnly w s) (store addr v k s) :=
  start.writeThen _ _ fun _ ht => ht.next_bumpPc _

/-- A rule that writes all four flags keeps none. -/
theorem allFlags (hu : WritesOnly w s u) (hw : w.flags = ⟨true, true, true, true⟩) (fl : Flags) :
    WritesOnly w s (u.setFlags fl) :=
  hu.flags (by simp [hw]) (hw ▸ Flags.keeps_none _ _)

theorem setAcc {r : Byte × Flags} (ha : .a ∈ w.regs) (hne : w.flags ≠ ⟨false, false, false, false⟩)
    (hfl : w.flags.Keeps s.flags r.2) (k : Word) : Ensures (WritesOnly w s) (setAcc r k s) :=
  ((start.reg .a _ ha nofun).flags hne hfl).next_bumpPc _

theorem setAcc_allFlags (ha : .a ∈ w.regs) (hw : w.flags = ⟨true, true, true, true⟩)
    (r : Byte × Flags) (k : Word) : Ensures (WritesOnly w s) (Machine.setAcc r k s) :=
  ((start.reg .a _ ha nofun).allFlags hw _).next_bumpPc _

theorem rotateA (ha : .a ∈ w.regs) (hw : w.flags = ⟨true, true, true, true⟩) (r : Byte × Bool) :
    Ensures (WritesOnly w s) (rotateA r s) :=
  ((start.reg .a _ ha nofun).allFlags hw _).next_bumpPc _

theorem modifyR8 {op : Byte → Flags → Byte × Flags} {r : R8} (hd : R8dests r ⊆ w.regs)
    (hne : w.flags ≠ ⟨false, false, false, false⟩)
    (hfl : ∀ v, w.flags.Keeps s.flags (op v s.flags).2) :
    Ensures (WritesOnly w s) (modifyR8 op r s) :=
  start.readR8Then _ fun v => start.writeR8Then hd _ fun _ ht =>
    (ht.flags hne (hfl v)).next_bumpPc _

theorem shiftR8 {r : R8} (hd : R8dests r ⊆ w.regs) (hw : w.flags = ⟨true, true, true, true⟩)
    (op : Byte → Bool → Byte × Bool) : Ensures (WritesOnly w s) (shiftR8 op r s) :=
  start.readR8Then _ fun _ => (start.allFlags hw _).writeR8Then hd _ fun _ ht =>
    ht.next_bumpPc _

theorem updateR8 {r : R8} (hd : R8dests r ⊆ w.regs) (op : Byte → Byte) :
    Ensures (WritesOnly w s) (updateR8 op r s) :=
  start.readR8Then _ fun _ => start.writeR8Then hd _ fun _ ht => ht.next_bumpPc _

theorem callTo (hsp : w.sp = true) (target retAddr : Word) :
    Ensures (WritesOnly w s) (callTo target retAddr s) :=
  start.push16Then hsp _ fun _ ht => ht.next_setPc _

theorem returnTo (hsp : w.sp = true) : Ensures (WritesOnly w s) (returnTo s) :=
  start.pop16Then hsp fun _ _ ht => ht.next_setPc _

theorem returnEnabled (hsp : w.sp = true) (hm : w.master = true) :
    Ensures (WritesOnly w s) (returnEnabled s) :=
  start.pop16Then hsp fun _ _ ht => (ensures_next _ _).mpr ((ht.pc _).master _ hm)

theorem unknownOpcode (key : Key) : Ensures (WritesOnly w s) (unknownOpcode key s) :=
  (ensures_next _ _).mpr (start.raise _)

end WritesOnly

/-- Everything an instruction does is a chain of updates that its rule names. -/
theorem exec_writesOnly (i : Instr) (s : State) : Ensures (WritesOnly i.writes s) (exec i s) := by
  have here : WritesOnly i.writes s s := .start
  unfold exec
  cases i with
  | nop => exact here.next_bumpPc _
  | ldRR =>
    exact here.readR8Then _ fun _ =>
      here.writeR8Then (List.Subset.refl _) _ fun _ ht => ht.next_bumpPc _
  | ldRN8 => exact here.writeR8Then (List.Subset.refl _) _ fun _ ht => ht.next_bumpPc _
  | ldRHl =>
    exact here.readThen _ fun _ =>
      here.writeR8Then (List.Subset.refl _) _ fun _ ht => ht.next_bumpPc _
  | ldHlR => exact here.readR8Then _ fun _ => WritesOnly.store _ _ _
  | ldHlN8 | ldN16A | ldBcA | ldDeA | ldhCA | ldhN8A => exact WritesOnly.store _ _ _
  | ldABc | ldADe | ldAN16 | ldhAC | ldhAN8 => exact WritesOnly.loadA List.mem_cons_self _ _
  | ldHliA | ldHldA =>
    exact here.writeThen _ _ fun _ ht => (ht.setHl _ (List.Subset.refl _)).next_bumpPc _
  | ldAHli | ldAHld =>
    exact here.readThen _ fun v =>
      ((here.reg .a v List.mem_cons_self nofun).setHl _ (List.subset_cons_self _ _)).next_bumpPc _
  | ldRrN16 rr | incRr rr | decRr rr =>
    have hsp : rr = .sp → (rr == PairSp.sp) = true := beq_iff_eq.mpr
    exact (here.setPairSp rr _ (List.Subset.refl _) hsp).next_bumpPc _
  | ldN16Sp =>
    exact here.writeThen _ _ fun _ h₁ => h₁.writeThen _ _ fun _ h₂ => h₂.next_bumpPc _
  | ldHlSpE8 => exact ((here.setHl _ (List.Subset.refl _)).allFlags rfl _).next_bumpPc _
  | ldSpHl => exact (here.sp _ rfl).next_bumpPc _
  | pushRr => exact here.push16Then rfl _ fun _ ht => ht.next_bumpPc _
  | popRr rr =>
    have hf : rr = .af → (Instr.popRr rr).writes.flags = ⟨true, true, true, true⟩ := by
      rintro rfl; rfl
    exact here.pop16Then rfl fun _ _ ht =>
      (ht.setPairAf rr _ (List.Subset.refl _) hf).next_bumpPc _
  | addAR8 | adcAR8 | subAR8 | sbcAR8 | andAR8 | xorAR8 | orAR8 =>
    exact here.readR8Then _ fun _ => WritesOnly.setAcc_allFlags List.mem_cons_self rfl _ _
  | addAN8 | adcAN8 | subAN8 | sbcAN8 | andAN8 | xorAN8 | orAN8 =>
    exact WritesOnly.setAcc_allFlags List.mem_cons_self rfl _ _
  | cpAR8 => exact here.readR8Then _ fun _ => (here.allFlags rfl _).next_bumpPc _
  | cpAN8 => exact (here.allFlags rfl _).next_bumpPc _
  | incR8 | decR8 =>
    exact WritesOnly.modifyR8 (List.Subset.refl _) (by nofun) fun _ => Flags.keeps_carry _ _ _ _
  | daa => exact WritesOnly.setAcc List.mem_cons_self (by nofun) (Flags.keeps_subtract _ _ _ _) _
  | cpl => exact WritesOnly.setAcc List.mem_cons_self (by nofun) (Flags.keeps_zero_carry _ _ _) _
  | scf | ccf => exact (here.flags (by nofun) (Flags.keeps_zero _ _ _ _)).next_bumpPc _
  | addHlRr =>
    exact ((here.setHl _ (List.Subset.refl _)).flags (by nofun)
      (Flags.keeps_zero _ _ _ _)).next_bumpPc _
  | addSpE8 => exact ((here.sp _ rfl).allFlags rfl _).next_bumpPc _
  | rlca | rrca | rla | rra => exact WritesOnly.rotateA List.mem_cons_self rfl _
  | rlcR8 | rrcR8 | rlR8 | rrR8 | slaR8 | sraR8 | swapR8 | srlR8 =>
    exact WritesOnly.shiftR8 (List.Subset.refl _) rfl _
  | bitBR8 =>
    exact here.readR8Then _ fun _ =>
      (here.flags (by nofun) (Flags.keeps_carry _ _ _ _)).next_bumpPc _
  | resBR8 | setBR8 => exact WritesOnly.updateR8 (List.Subset.refl _) _
  | jpN16 | jpHl | jrE8 => exact here.next_setPc _
  | jpCcN16 | jrCcE8 => exact ensures_ite (here.next_setPc _) (here.next_bumpPc _)
  | callN16 | rstT => exact WritesOnly.callTo rfl _ _
  | callCcN16 => exact ensures_ite (WritesOnly.callTo rfl _ _) (here.next_bumpPc _)
  | ret => exact WritesOnly.returnTo rfl
  | retCc => exact ensures_ite (WritesOnly.returnTo rfl) (here.next_bumpPc _)
  | reti => exact WritesOnly.returnEnabled rfl rfl
  | ei => exact (here.pending rfl).next_bumpPc _
  | di => exact (here.master _ rfl).next_bumpPc _
  | illegal10 | illegal76 | illegalD3 | illegalDB | illegalDD | illegalE3 | illegalE4 | illegalEB
  | illegalEC | illegalED | illegalF4 | illegalFC | illegalFD => exact WritesOnly.unknownOpcode _

end Sys2Proof.Machine
end

section
/-! The frames of the instructions (10_state.md R10 to R25): inductions over the chain of updates. -/

namespace Sys2Proof.Machine.WritesOnly

open Sys2Proof.Spec (LowNibbleZero)

variable {w : Writes} {s t : State}

/-- A register that is no destination keeps its value (10_state.md R10). -/
theorem reg_eq (ht : WritesOnly w s t) {q : Reg} (hf : q ≠ .f) (hq : q ∉ w.regs) :
    t.reg q = s.reg q := by
  induction ht with
  | start => rfl
  | pc | raise | stored | sp | pending | master => cases q <;> assumption
  | @reg u r v hr _ _ ih =>
    have hne : q ≠ r := fun h => hq (h ▸ hr)
    rw [State.reg_setReg, if_neg hne, ih]
  | flags =>
    cases q
    case f => exact absurd rfl hf
    all_goals assumption

/-- `sp` keeps its value unless it is named (10_state.md R15). -/
theorem sp_eq (ht : WritesOnly w s t) (hsp : w.sp = false) : t.sp = s.sp := by
  induction ht with
  | sp _ h => simp [hsp] at h
  | reg q v _ _ _ ih => rw [State.setReg_sp, ih]
  | start => rfl
  | pc | raise | stored | flags | pending | master => assumption

/-- The flags register changes only by a write of flags that keeps those not named (10_state.md R13). -/
theorem f_eq_or (ht : WritesOnly w s t) :
    t.f = s.f ∨ w.flags ≠ ⟨false, false, false, false⟩ ∧
      ∃ fl, w.flags.Keeps s.flags fl ∧ t.f = fl.pack := by
  induction ht with
  | start => exact .inl rfl
  | flags hne hkeep => exact .inr ⟨hne, _, hkeep, rfl⟩
  | reg q v _ hf _ ih => rwa [State.setReg_f, if_neg hf]
  | pc | raise | stored | sp | pending | master => assumption

/-- A flag that is not named keeps its value (10_state.md R13). -/
theorem flags_keep (ht : WritesOnly w s t) : w.flags.Keeps s.flags t.flags := by
  obtain hf | ⟨-, fl, hkeep, hf⟩ := ht.f_eq_or
  · have : t.flags = s.flags := by rw [State.flags, State.flags, hf]
    rw [this]
    exact ⟨fun _ => rfl, fun _ => rfl, fun _ => rfl, fun _ => rfl⟩
  · have : t.flags = (t.setFlags fl).flags := by rw [State.flags, State.flags, hf]; rfl
    rwa [this, State.setFlags_flags]

theorem f_eq (ht : WritesOnly w s t) (hw : w.flags = ⟨false, false, false, false⟩) : t.f = s.f :=
  ht.f_eq_or.resolve_right fun h => h.1 hw

theorem lowNibbleZero (ht : WritesOnly w s t) (hs : LowNibbleZero s) : LowNibbleZero t := by
  obtain hf | ⟨-, fl, -, hf⟩ := ht.f_eq_or
  · rwa [LowNibbleZero, hf]
  · rw [LowNibbleZero, hf]; exact Flags.pack_low fl

/-- The fields no rule names (10_state.md R20, R21, R22, R25). -/
theorem system_eq (ht : WritesOnly w s t) :
    t.bootMapped = s.bootMapped ∧ t.ppu = s.ppu ∧ t.opCount = s.opCount ∧ t.launch = s.launch ∧
      t.hostPlan = s.hostPlan ∧ t.out.cycles = s.out.cycles ∧ t.out.rendered = s.out.rendered := by
  induction ht with
  | start => simp
  | reg q v _ _ _ ih => cases q <;> exact ih
  | pc | raise | stored | sp | flags | pending | master => assumption

theorem launch_eq (ht : WritesOnly w s t) : t.launch = s.launch :=
  let ⟨_, _, _, hl, _⟩ := ht.system_eq
  hl

theorem ime_eq (ht : WritesOnly w s t) (hw : w.master = false) : t.ime = s.ime := by
  induction ht with
  | start => rfl
  | reg q v _ _ _ ih => rw [State.setReg_ime, ih]
  | master _ h => simp [hw] at h
  | pc | raise | stored | sp | flags | pending => assumption

theorem imePending_eq (ht : WritesOnly w s t) (hp : w.pending = false) (hm : w.master = false) :
    t.imePending = s.imePending := by
  induction ht with
  | start => rfl
  | reg q v _ _ _ ih => rw [State.setReg_imePending, ih]
  | pending h => simp [hp] at h
  | master _ h => simp [hm] at h
  | pc | raise | stored | sp | flags => assumption

/-- The stores stay well formed (10_state.md R21). -/
theorem mem_wf (ht : WritesOnly w s t) (hs : s.mem.wf = true) : t.mem.wf = true := by
  induction ht with
  | start => exact hs
  | @stored u m a v hput _ ih => exact Stores.wf_put hput (u.route_exists a) ih
  | reg q v _ _ _ ih => rwa [State.setReg_mem]
  | pc | raise | sp | flags | pending | master => assumption

end Sys2Proof.Machine.WritesOnly
end

section
/-! What every step keeps: a property that the updates of a rule and the end of a step keep is kept by
the Cpu step; the launch and the invariant are two such properties. -/

namespace Sys2Proof.Machine

variable {P : State → Prop} {s t : State}

/-- A property that the updates of every rule and the end of a step keep is kept from the fetch on
(60_exceptions.md R200 parts 2 to 5). -/
theorem executeThen_ensures {arm : Bool} {spent : Nat} (hs : P s)
    (hwrites : ∀ {w u v}, P u → WritesOnly w u v → P v)
    (hfinish : ∀ {u} arm n, P u → P (u.finish arm n)) : Ensures P (executeThen arm spent s) := by
  refine fetchThen_ensures (fun e => hwrites (w := .service) hs (.raise e .start)) fun i => ?_
  refine afterExec_ensures fun u hu => ?_
  have hP : P u := hwrites hs (exec_writesOnly i s u hu)
  exact ⟨fun _ => hP, fun _ => hfinish _ _ hP⟩

/-- The same of the whole Cpu step, interrupt entry included (60_exceptions.md R200, R214). -/
theorem cpuStep_ensures (hs : P s.begin)
    (hwrites : ∀ {w u v}, P u → WritesOnly w u v → P v)
    (hfinish : ∀ {u} arm n, P u → P (u.finish arm n)) : Ensures P (cpuStep s) := by
  unfold cpuStep
  split
  · exact WritesOnly.serviceThen_ensures _ _ (fun t ht => hwrites hs ht)
      fun t ht => executeThen_ensures (hwrites hs ht) hwrites hfinish
  · exact executeThen_ensures hs hwrites hfinish

/-! ### The end of a step -/

/-- Everything the end of a step writes: the enables, the count, the port, and the video controller
where the display is on (60_exceptions.md R200, R226). -/
theorem State.finish_eq (s : State) (arm : Bool) (n : Nat) :
    ∃ ime pending count ppu out, (ppu = s.ppu ∨ ppu = (s.ppu.run n).1) ∧ s.finish arm n =
      { s with ime := ime, imePending := pending, opCount := count, ppu := ppu, out := out } := by
  unfold State.finish State.advance
  cases arm
  all_goals
    dsimp only
    split
    · exact ⟨_, _, _, _, _, .inr rfl, rfl⟩
    · exact ⟨_, _, _, _, _, .inl rfl, rfl⟩

section

variable {line clock : Nat}

@[simp] theorem Ppu.legal_oamScan :
    Ppu.legal ⟨.oamScan, line, clock⟩ = true ↔ line < 144 ∧ clock < 80 := decide_eq_true_iff

@[simp] theorem Ppu.legal_pixelTransfer :
    Ppu.legal ⟨.pixelTransfer, line, clock⟩ = true ↔ line < 144 ∧ 80 ≤ clock ∧ clock < 252 :=
  decide_eq_true_iff

@[simp] theorem Ppu.legal_hblank :
    Ppu.legal ⟨.hblank, line, clock⟩ = true ↔ line < 144 ∧ clock < 456 := decide_eq_true_iff

@[simp] theorem Ppu.legal_vblank :
    Ppu.legal ⟨.vblank, line, clock⟩ = true ↔ 144 ≤ line ∧ line ≤ 153 ∧ clock < 456 :=
  decide_eq_true_iff

end

/-- A tick keeps the video controller legal (10_state.md R20, 60_exceptions.md R227). -/
theorem Ppu.legal_tick (p : Ppu) (h : p.legal = true) : p.tick.1.legal = true := by
  obtain ⟨mode, line, clock⟩ := p
  unfold Ppu.tick
  cases mode with
  | oamScan =>
    rw [Ppu.legal_oamScan] at h
    dsimp only
    split_ifs with hc <;> simp [Config.oamCycles] at hc ⊢ <;> omega
  | pixelTransfer =>
    rw [Ppu.legal_pixelTransfer] at h
    dsimp only
    split_ifs with hc <;> simp [Config.oamCycles, Config.transferCycles] at hc ⊢ <;> omega
  | hblank =>
    rw [Ppu.legal_hblank] at h
    dsimp only
    split_ifs with hc hl
    · simp [Config.visibleLines] at hl ⊢; omega
    · simp [Config.visibleLines] at hl ⊢; omega
    · simp [Config.lineCycles] at hc ⊢; omega
  | vblank =>
    rw [Ppu.legal_vblank] at h
    dsimp only
    split_ifs with hc hl
    · simp
    · simp [Config.visibleLines, Config.vblankLines] at hl ⊢; omega
    · simp [Config.lineCycles] at hc ⊢; omega

theorem Ppu.legal_run (n : Nat) (p : Ppu) (h : p.legal = true) : (p.run n).1.legal = true := by
  induction n generalizing p with
  | zero => exact h
  | succ n ih => exact ih _ (p.legal_tick h)

/-! ### The invariant -/

/-- The updates of a rule keep the invariant. -/
theorem WritesOnly.inv {w : Writes} (hs : s.Inv) (ht : WritesOnly w s t) : t.Inv := by
  obtain ⟨hf, hmem, hppu, hlaunch, hboot⟩ := hs
  obtain ⟨hb, hp, -, hl, -⟩ := ht.system_eq
  refine ⟨ht.lowNibbleZero hf, ht.mem_wf hmem, hp ▸ hppu, hl ▸ hlaunch, ?_⟩
  rwa [hb, hl]

/-- The end of a step keeps the invariant. -/
theorem State.inv_finish (hs : s.Inv) (arm : Bool) (n : Nat) : (s.finish arm n).Inv := by
  obtain ⟨hf, hmem, hppu, hlaunch, hboot⟩ := hs
  obtain ⟨_, _, _, ppu, _, hp, heq⟩ := s.finish_eq arm n
  have hppu' : ppu.legal = true := by
    rcases hp with rfl | rfl
    · exact hppu
    · exact Ppu.legal_run n _ hppu
  rw [heq]
  exact ⟨hf, hmem, hppu', hlaunch, hboot⟩

theorem cpuStep_inv (hs : s.Inv) (h : cpuStep s = .next t) : t.Inv :=
  cpuStep_ensures hs WritesOnly.inv (fun arm n hu => State.inv_finish hu arm n) t h

/-! ### The launch -/

theorem State.launch_finish (s : State) (arm : Bool) (n : Nat) :
    (s.finish arm n).launch = s.launch := by
  obtain ⟨_, _, _, _, _, -, heq⟩ := s.finish_eq arm n
  rw [heq]

theorem cpuStep_launch (h : cpuStep s = .next t) : t.launch = s.launch :=
  cpuStep_ensures (P := fun u => u.launch = s.launch) rfl
    (fun hu hv => hv.launch_eq.trans hu)
    (fun arm n hu => (State.launch_finish _ arm n).trans hu) t h

/-- No step changes a launch parameter (10_state.md R25). -/
theorem step_launch (h : step s = .next t) : t.launch = s.launch := by
  obtain ⟨-, ⟨plan, -, hcpu⟩ | ⟨plan, -, rfl⟩ | ⟨v, plan, -, -, rfl⟩⟩ := step_eq_next h
  · exact cpuStep_launch (s := { s with hostPlan := plan }) hcpu
  · rfl
  · rfl

/-! ### Reset and single cells -/

/-- Stores of zeros answer 0x00 in every writable cell (10_state.md R24). -/
theorem Stores.get_zero {r : Route} (h : r.isRam = true) : Stores.zero.get r = some 0x00 := by
  cases r with
  | vram | eram | wram | input | io | hram | ie => rfl
  | bootRom | cartRom | unmapped => simp [Route.isRam] at h

theorem State.cell_of_isRam (s : State) {r : Route} (h : r.isRam = true) :
    s.cell r = s.mem.get r := by
  cases r with
  | vram | eram | wram | input | io | hram | ie => rfl
  | bootRom | cartRom | unmapped => simp [Route.isRam] at h

/-- Only 0xFF00 is the input cell (20_memory.md R32). -/
theorem State.route_eq_input (s : State) (a : Word) : s.route a = .input ↔ a = 0xFF00 := by
  constructor
  · intro h
    have hw : writable a = true := by rw [← s.route_isRam, h]; rfl
    have hlow := s.route_lowest a hw
    rw [h] at hlow
    apply BitVec.eq_of_toNat_eq
    simp only [Route.lowest] at hlow
    split at hlow
    · omega
    · exact hlow.symm
  · rintro rfl
    simp [State.route]

/-- Below 0x8000 the bus answers from the launch images alone (20_memory.md R31, 10_state.md R25). -/
theorem State.busRead_rom_congr (hb : t.bootMapped = s.bootMapped) (hl : t.launch = s.launch) {a : Word}
    (ha : a.toNat < 0x8000) : t.busRead a = s.busRead a := by
  have hram : (s.route a).isRam = false := by
    rw [s.route_isRam]; simp [writable]; omega
  rw [State.busRead, State.busRead, State.route_congr hb hl]
  revert hram
  cases s.route a <;> simp [Route.isRam, State.cell, hl]

/-- The host's write of the input cell is seen at 0xFF00 and nowhere else (10_state.md R19). -/
theorem State.busRead_writeInput (s : State) (v : Byte) (a : Word) :
    (s.writeInput v).busRead a = if a = 0xFF00 then some v else s.busRead a := by
  have hput : s.mem.put .input v = some (s.writeInput v).mem := rfl
  have hroute : (s.writeInput v).route a = s.route a := rfl
  rw [State.busRead, hroute]
  split
  · next h =>
    rw [(s.route_eq_input a).mpr h]; rfl
  · next h =>
    have hget := Stores.get_put_ne hput fun hr => h ((s.route_eq_input a).mp hr)
    rw [State.busRead]
    revert hget
    cases s.route a <;> simp [State.cell]

/-- Reset at an admitted launch meets the invariant (10_state.md R24, 00_scope.md R7). -/
theorem State.inv_ofLaunch {p : Launch} (h : p.wf = true) : (State.ofLaunch p).Inv := by
  have hmem : p.initMem.wf = true := by
    simp only [Launch.wf, Bool.and_eq_true] at h
    exact h.1.2
  have hf : (0xB0 : Byte) &&& 0x0F = 0 := by decide
  exact ⟨hf, hmem, rfl, h, id⟩

end Sys2Proof.Machine
end

section
/-! The statements of 10_state.md, from the lemmas above. -/

namespace Sys2Proof.Proofs

open Machine Spec

/-- Settles O3: the invariant is kept by every update that a rule allows and by the end of a step, so by
the Cpu step (`cpuStep_ensures`); the host's two moves keep it by its definition. -/
theorem stepKeepsInvariant : Obligations.StepKeepsInvariant := by
  intro s t hs h
  obtain ⟨hf, hmem, hppu, hlaunch, hboot⟩ := hs
  obtain ⟨-, ⟨plan, -, hcpu⟩ | ⟨plan, -, rfl⟩ | ⟨v, plan, -, -, rfl⟩⟩ := step_eq_next h
  · exact cpuStep_inv (s := { s with hostPlan := plan }) ⟨hf, hmem, hppu, hlaunch, hboot⟩ hcpu
  · exact ⟨hf, hmem, hppu, hlaunch, nofun⟩
  · exact ⟨hf, hmem, hppu, hlaunch, hboot⟩

/-- Settles O19: with `HOST_WRITES` the step is the write of the input cell, else the refusal. -/
theorem hostWritesOnlyInputCell : Obligations.HostWritesOnlyInputCell := by
  intro s v plan hf hp
  have hstep : step s = if s.launch.hostWrites then
      .next { s.begin.writeInput v with hostPlan := plan } else .refused .hostWriteForbidden := by
    simp only [step, systemStep, hf, hp]
  have hread := s.begin.busRead_writeInput v
  refine ⟨fun hw => by simp [hstep, hw], fun hw => ?_⟩
  refine ⟨{ s.begin.writeInput v with hostPlan := plan }, by simp [hstep, hw], ?_, ?_, ?_⟩
  · simp [begun, hp, State.writeInput, State.begin, StepOut.empty]
  · exact (hread 0xFF00).trans (if_pos rfl)
  · exact fun a ha => (hread a).trans (if_neg ha)

/-- Settles O20: a read below 0x8000 depends on the launch and the boot mapping only. -/
theorem launchAndRomNeverChange : Obligations.LaunchAndRomNeverChange :=
  fun _ _ h => ⟨step_launch h, fun hb _ ha => State.busRead_rom_congr hb (step_launch h) ha⟩

/-- Settles O57: what an instruction does is a chain of updates, each of `pc`, the latch, the bus or a
destination. -/
theorem registerFrame : Obligations.RegisterFrame := fun i s t h =>
  have ht := exec_writesOnly i s t h
  ⟨fun _ hf hq => ht.reg_eq hf hq, ht.sp_eq⟩

/-- Settles O58: `f` is as before, or flags packed that keep those the rule does not name. -/
theorem flagFrame : Obligations.FlagFrame := by
  intro i s t h
  have ht := exec_writesOnly i s t h
  obtain ⟨hz, hn, hh, hc⟩ := ht.flags_keep
  exact ⟨hz, hn, hh, hc, ht.f_eq, ht.lowNibbleZero⟩

/-- Settles O60: no update that a rule allows touches these fields. -/
theorem systemFrame : Obligations.SystemFrame := by
  intro i s t h
  have ht := exec_writesOnly i s t h
  have master : i ≠ .di → i ≠ .reti → i.writes.master = false := fun hd hr => by
    simp [Instr.writes, hd, hr]
  have pending : i ≠ .ei → i.writes.pending = false := fun he => by simp [Instr.writes, he]
  exact ⟨fun hd hr => ht.ime_eq (master hd hr),
    fun he hd hr => ht.imePending_eq (pending he) (master hd hr), ht.system_eq⟩

/-- Settles O1: the fields by definition, the writable cells because stores of zeros answer 0x00. -/
theorem resetValues : Obligations.ResetValues := by
  intro p
  refine ⟨⟨rfl, rfl, rfl, rfl, rfl, rfl, rfl, rfl, rfl, rfl⟩, ⟨rfl, rfl, rfl, rfl, rfl, rfl, rfl⟩, ?_⟩
  refine fun hzero => ⟨rfl, fun a ha => ?_⟩
  have hram : ((State.ofLaunch p).route a).isRam = true := by rw [State.route_isRam, ha]
  have hmem : (State.ofLaunch p).mem = .zero := hzero
  rw [State.busRead, State.cell_of_isRam _ hram, hmem, Stores.get_zero hram]

/-- Settles O2: `Launch.wf` asks of the launch what the invariant asks of the stores. -/
theorem resetSatisfiesInvariant : Obligations.ResetSatisfiesInvariant :=
  ⟨State.inv_ofLaunch (by decide), fun _ => State.inv_ofLaunch⟩

end Sys2Proof.Proofs
end

section
/-! The bus (20_memory.md): which accesses are fatal, which addresses name one cell, and the bulk
reader. -/

namespace Sys2Proof.Machine

/-! ### Fatal accesses -/

theorem State.busRead_eq_none (s : State) (a : Word) : s.busRead a = none ↔ s.readable a = false := by
  rw [← s.busRead_isSome a, Option.isSome_eq_false_iff, Option.isNone_iff_eq_none]

theorem State.busWrite_eq_none (s : State) (a : Word) (v : Byte) :
    s.busWrite a v = none ↔ writable a = false := by
  rw [← s.busWrite_isSome a v, Option.isSome_eq_false_iff, Option.isNone_iff_eq_none]

/-- The addresses no write stores to (20_memory.md R36, R37). -/
theorem writable_eq_false_iff (a : Word) :
    writable a = false ↔ a.toNat ≤ 0x7FFF ∨ (0xFE00 ≤ a.toNat ∧ a.toNat ≤ 0xFEFF) := by
  rw [writable, Bool.and_eq_false_iff, Bool.not_eq_false', Bool.and_eq_true]
  simp only [decide_eq_true_eq, decide_eq_false_iff_not]
  omega

/-- The addresses no read answers (20_memory.md R37, R38). -/
theorem State.readable_eq_false_iff (s : State) (a : Word) :
    s.readable a = false ↔ (0xFE00 ≤ a.toNat ∧ a.toNat ≤ 0xFEFF) ∨
      (a.toNat ≤ 0x7FFF ∧ ¬ (a.toNat ≤ 0xFF ∧ s.bootMapped = true) ∧ s.launch.cartLen ≤ a.toNat) := by
  rw [State.readable]
  split
  · next h =>
    have hgap : ¬ (0xFE00 ≤ a.toNat ∧ a.toNat ≤ 0xFEFF) := by omega
    rw [← Bool.not_eq_true, Bool.or_eq_true, not_or, Bool.and_eq_true]
    simp only [decide_eq_true_eq, not_lt, hgap, h, false_or, true_and]
  · rw [writable_eq_false_iff]
    omega

/-! ### Aliases -/

/-- A mapped address is the lowest of its cell, but in the echo range (20_memory.md R33). -/
theorem State.lowest_of_mapped (s : State) (a : Word) (h : s.route a ≠ .unmapped) :
    (s.route a).lowest = if 0xE000 ≤ a.toNat ∧ a.toNat ≤ 0xFDFF then a.toNat - 0x2000 else a.toNat := by
  cases hw : writable a with
  | true => exact s.route_lowest a hw
  | false =>
    have hrom : (s.route a).isRam = false := by rw [s.route_isRam, hw]
    have hrange := (writable_eq_false_iff a).mp hw
    revert h hrom
    simp only [State.route]
    repeat' split
    all_goals simp only [Route.isRam, Route.lowest, ne_eq, not_true_eq_false, false_implies, implies_true,
      reduceCtorEq, Bool.true_eq_false, not_false_eq_true, true_implies]
    all_goals omega

theorem toNat_echo {a : Word} (ha : a.toNat ≤ 0xDDFF) : (a + 0x2000).toNat = a.toNat + 0x2000 := by
  rw [BitVec.toNat_add]
  exact Nat.mod_eq_of_lt (by simp; omega)

/-- A work-RAM address and its echo name one cell (20_memory.md R33). -/
theorem State.route_echo (s : State) {a : Word} (hlo : 0xC000 ≤ a.toNat) (hhi : a.toNat ≤ 0xDDFF) :
    s.route (a + 0x2000) = s.route a := by
  have hoff : a.toNat + 0x2000 - 0xE000 = a.toNat - 0xC000 := by omega
  simp (disch := omega) only [State.route, toNat_echo hhi, if_neg, if_pos, hoff]

/-- Two mapped addresses of one cell are equal, or a work-RAM address and its echo. -/
theorem State.eq_or_echo_of_route_eq (s : State) {a b : Word} (ha : s.route a ≠ .unmapped)
    (h : s.route a = s.route b) :
    a = b ∨ (0xC000 ≤ a.toNat ∧ a.toNat ≤ 0xDDFF ∧ b = a + 0x2000) ∨
      (0xC000 ≤ b.toNat ∧ b.toNat ≤ 0xDDFF ∧ a = b + 0x2000) := by
  have hlow := congrArg Route.lowest h
  rw [s.lowest_of_mapped a ha, s.lowest_of_mapped b (h ▸ ha)] at hlow
  split_ifs at hlow with hea heb heb
  · exact .inl (BitVec.eq_of_toNat_eq (by omega))
  · refine .inr (.inr ⟨by omega, by omega, BitVec.eq_of_toNat_eq ?_⟩)
    rw [toNat_echo (by omega)]; omega
  · refine .inr (.inl ⟨by omega, by omega, BitVec.eq_of_toNat_eq ?_⟩)
    rw [toNat_echo (by omega)]; omega
  · exact .inl (BitVec.eq_of_toNat_eq hlow)

/-! ### The bulk reader -/

theorem toNat_add_ofNat {a : Word} {k : Nat} (h : a.toNat + k < 0x10000) :
    (a + BitVec.ofNat 16 k).toNat = a.toNat + k := by
  rw [BitVec.toNat_add, BitVec.toNat_ofNat, Nat.add_mod_mod, Nat.mod_eq_of_lt h]

/-- The offset of an address above `a` leads to it. -/
theorem add_ofNat_sub {a x : Word} (h : a ≤ x) : a + BitVec.ofNat 16 (x.toNat - a.toNat) = x := by
  have hle : a.toNat ≤ x.toNat := h
  have hx : x.toNat < 0x10000 := x.isLt
  apply BitVec.eq_of_toNat_eq
  rw [toNat_add_ofNat (by omega), Nat.add_sub_cancel' hle]

theorem add_ofNat_succ (a : Word) (k : Nat) :
    a + BitVec.ofNat 16 (k + 1) = a + 1 + BitVec.ofNat 16 k := by
  rw [BitVec.add_assoc, BitVec.add_comm 1]
  congr 1
  exact BitVec.ofNat_add k 1

section

variable (s : State) {st : Nat} {a : Word}

/-- A byte of the store is answered before those that follow it (20_memory.md R40). -/
theorem State.readFrom_succ {v : Byte} (n : Nat) (hst : (s.route a).store = st)
    (hv : s.busRead a = some v) :
    s.readFrom st a (n + 1) = (s.readFrom st (a + 1) n).map (v :: ·) := by
  rw [State.readFrom, if_pos hst, hv]
  cases s.readFrom st (a + 1) n <;> rfl

/-- An unmapped address ends the reading (20_memory.md R40). -/
theorem State.readFrom_unmapped (n : Nat) (h : s.busRead a = none) :
    s.readFrom st a (n + 1) = .error a := by
  rw [State.readFrom, h]
  split <;> rfl

/-- Bytes of one store are read in ascending order (20_memory.md R40). -/
theorem State.readFrom_eq_ok {n : Nat}
    (h : ∀ k < n, s.readable (a + BitVec.ofNat 16 k) = true ∧
      (s.route (a + BitVec.ofNat 16 k)).store = st) :
    ∃ bs, s.readFrom st a n = .ok bs ∧ bs.length = n ∧
      ∀ k < n, bs[k]? = s.busRead (a + BitVec.ofNat 16 k) := by
  induction n generalizing a with
  | zero => exact ⟨[], rfl, rfl, fun k hk => absurd hk k.not_lt_zero⟩
  | succ n ih =>
    obtain ⟨vs, hvs, hlen, hget⟩ := ih fun k hk => add_ofNat_succ a k ▸ h (k + 1) (by omega)
    have ha : a + BitVec.ofNat 16 0 = a := BitVec.add_zero a
    obtain ⟨hread, hstore⟩ := ha ▸ h 0 n.succ_pos
    obtain ⟨v, hv⟩ := s.busRead_of_readable hread
    refine ⟨v :: vs, ?_, congrArg (· + 1) hlen, fun k hk => ?_⟩
    · rw [s.readFrom_succ n hstore hv, hvs]; rfl
    · cases k with
      | zero => rw [ha, hv]; rfl
      | succ k => rw [add_ofNat_succ]; exact hget k (by omega)

/-- The first unmapped address after bytes of one store is the one reported (20_memory.md R40). -/
theorem State.readFrom_eq_error {m n : Nat} (hmn : m < n)
    (hx : s.readable (a + BitVec.ofNat 16 m) = false)
    (h : ∀ k < m, s.readable (a + BitVec.ofNat 16 k) = true ∧
      (s.route (a + BitVec.ofNat 16 k)).store = st) :
    s.readFrom st a n = .error (a + BitVec.ofNat 16 m) := by
  have ha : a + BitVec.ofNat 16 0 = a := BitVec.add_zero a
  induction n generalizing a m with
  | zero => exact absurd hmn m.not_lt_zero
  | succ n ih =>
    cases m with
    | zero =>
      rw [ha] at hx ⊢
      exact s.readFrom_unmapped n ((s.busRead_eq_none a).mpr hx)
    | succ m =>
      obtain ⟨hread, hstore⟩ := ha ▸ h 0 m.succ_pos
      obtain ⟨v, hv⟩ := s.busRead_of_readable hread
      rw [add_ofNat_succ] at hx ⊢
      rw [s.readFrom_succ n hstore hv, ih (Nat.lt_of_succ_lt_succ hmn) hx
        (fun k hk => add_ofNat_succ a k ▸ h (k + 1) (by omega)) (BitVec.add_zero _)]
      rfl

end

end Sys2Proof.Machine
end

section
/-! The bus writes of an instruction: the stores are its recorded writes made in order, and the record
is the addresses its rule stores to. -/

namespace Sys2Proof.Machine

/-! ### Recorded writes -/

theorem State.applyWrites_append (s : State) (m : Stores) (ws vs : List (Word × Byte)) :
    s.applyWrites m (ws ++ vs) = s.applyWrites (s.applyWrites m ws) vs := by
  induction ws generalizing m with
  | nil => rfl
  | cons w ws ih => exact ih _

theorem State.applyWrites_congr {s t : State} (h : ∀ a, t.route a = s.route a) (m : Stores)
    (ws : List (Word × Byte)) : t.applyWrites m ws = s.applyWrites m ws := by
  induction ws generalizing m with
  | nil => rfl
  | cons w ws ih => rw [State.applyWrites, State.applyWrites, h, ih]

/-- A cell that no write of the list names keeps its byte (20_memory.md R36). -/
theorem State.get_applyWrites (s : State) (m : Stores) (ws : List (Word × Byte)) {r : Route}
    (h : ∀ w ∈ ws, r ≠ s.route w.1) : (s.applyWrites m ws).get r = m.get r := by
  induction ws generalizing m with
  | nil => rfl
  | cons w ws ih =>
    obtain ⟨hw, hws⟩ := List.forall_mem_cons.mp h
    rw [State.applyWrites, ih _ hws]
    cases hput : m.put (s.route w.1) w.2 with
    | none => rfl
    | some m' => exact Stores.get_put_ne hput hw

/-- A byte depends on the stores by its cell only. -/
theorem State.cell_congr {s t : State} {r : Route} (hl : t.launch = s.launch)
    (h : t.mem.get r = s.mem.get r) : t.cell r = s.cell r := by
  cases r with
  | vram | eram | wram | input | io | hram | ie => exact h
  | bootRom | cartRom | unmapped => simp only [State.cell, hl]

namespace WritesOnly

variable {w : Writes} {s t : State}

theorem bootMapped_eq (ht : WritesOnly w s t) : t.bootMapped = s.bootMapped :=
  let ⟨hb, _⟩ := ht.system_eq
  hb

/-- The updates of a rule leave the decoder as it is. -/
theorem route_eq (ht : WritesOnly w s t) (a : Word) : t.route a = s.route a :=
  State.route_congr ht.bootMapped_eq ht.launch_eq a

/-- Every write that reaches a cell is in the record (20_memory.md R47, log 8). -/
theorem exists_writes (ht : WritesOnly w s t) :
    ∃ ws, t.out.writes = s.out.writes ++ ws ∧ t.mem = s.applyWrites s.mem ws := by
  induction ht with
  | start => exact ⟨[], (List.append_nil _).symm, rfl⟩
  | @stored u m a v hput hu ih =>
    obtain ⟨ws, hout, hmem⟩ := ih
    refine ⟨ws ++ [(a, v)], ?_, ?_⟩
    · rw [← List.append_assoc, ← hout]; rfl
    · rw [State.applyWrites_append, ← hmem, State.applyWrites, State.applyWrites, ← hu.route_eq, hput]
      rfl
  | reg q v _ _ _ ih => rwa [State.setReg_out, State.setReg_mem]
  | pc | raise | sp | flags | pending | master => assumption

/-- The bytes whose cells the recorded addresses do not name are as before (20_memory.md R36). -/
theorem busRead_eq (ht : WritesOnly w s t) {as : List Word}
    (has : t.out.writes.map (·.1) = s.out.writes.map (·.1) ++ as) : s.SameBytesOutside t as := by
  intro a ha
  obtain ⟨ws, hout, hmem⟩ := ht.exists_writes
  have hws : ws.map (·.1) = as := by
    rw [hout, List.map_append] at has
    exact List.append_cancel_left has
  rw [State.busRead, State.busRead, ht.route_eq]
  refine State.cell_congr ht.launch_eq ?_
  rw [hmem]
  exact s.get_applyWrites s.mem ws fun x hx => ha x.1 (hws ▸ List.mem_map_of_mem hx)

end WritesOnly

/-! ### The addresses of an instruction's writes, in order -/

/-- Of the result's state: the record of `s` has gained the addresses `as` in order, or after a raise
some of them from the first on. -/
def StoresInOrder (s : State) (as : List Word) (r : Result) : Prop :=
  Ensures (fun t => ∃ done, done <+: as ∧
    t.out.writes.map (·.1) = s.out.writes.map (·.1) ++ done ∧ (t.fault = none → done = as)) r

namespace StoresInOrder

variable {s t : State} {as : List Word}

theorem next (h : t.out = s.out) : StoresInOrder s [] (.next t) :=
  (ensures_next _ _).mpr ⟨[], List.prefix_rfl, by rw [h, List.append_nil], fun _ => rfl⟩

theorem raise (k : FaultKind) : StoresInOrder s as (.next (s.raise k)) :=
  (ensures_next _ _).mpr ⟨[], List.nil_prefix, (List.append_nil _).symm, nofun⟩

theorem readThen (a : Word) {k : Byte → Result} (hk : ∀ v, StoresInOrder s as (k v)) :
    StoresInOrder s as (readThen s a k) :=
  readThen_ensures ((ensures_next _ _).mp (raise _)) fun v _ => hk v

/-- A write is the first of the addresses, and what follows makes the others. -/
theorem writeThen (a : Word) (v : Byte) {k : State → Result}
    (hk : ∀ m, StoresInOrder (s.stored m a v) as (k (s.stored m a v))) :
    StoresInOrder s (a :: as) (writeThen s a v k) := by
  refine writeThen_ensures ((ensures_next _ _).mp (raise _)) fun u hu t ht => ?_
  obtain ⟨m, -, rfl⟩ := State.busWrite_eq_some hu
  obtain ⟨done, hpre, hout, hdone⟩ := hk m t ht
  refine ⟨a :: done, (List.prefix_cons_inj a).mpr hpre, ?_, fun hf => congrArg _ (hdone hf)⟩
  rw [hout]
  simp [State.stored]

theorem readR8Then (r : R8) {k : Byte → Result} (hk : ∀ v, StoresInOrder s as (k v)) :
    StoresInOrder s as (readR8Then r s k) :=
  readR8Then_ensures (fun _ => (ensures_next _ _).mp (raise _)) fun v _ => hk v

theorem writeR8Then (r : R8) (v : Byte) {k : State → Result} (hk : ∀ t, StoresInOrder t [] (k t)) :
    StoresInOrder s (R8stores r s) (writeR8Then r v s k) := by
  cases r
  case mhl => exact writeThen _ _ fun m => hk _
  all_goals exact hk _

/-- A push writes at `sp - 1` and then at `sp - 2` (40_source_named.md R86). -/
theorem push16Then (w : Word) {k : State → Result} (hk : ∀ t, StoresInOrder t [] (k t)) :
    StoresInOrder s (pushStores s) (push16Then w s k) := by
  have hsp : s.sp - 1 - 1 = s.sp - 2 := by rw [BitVec.sub_sub]; rfl
  rw [pushStores, ← hsp]
  exact writeThen (s := s.setSp _) _ _ fun _ => writeThen (s := State.setSp _ _) _ _ fun _ => hk _

theorem pop16Then {k : Word → State → Result} (hk : ∀ w t, StoresInOrder t [] (k w t)) :
    StoresInOrder s [] (pop16Then s k) :=
  readThen _ fun _ => readThen (s := s.setSp _) _ fun _ => hk _ _

theorem store (a : Word) (v : Byte) (k : Word) : StoresInOrder s [a] (store a v k s) :=
  writeThen _ _ fun _ => next rfl

theorem modifyR8 (op : Byte → Flags → Byte × Flags) (r : R8) :
    StoresInOrder s (R8stores r s) (modifyR8 op r s) :=
  readR8Then _ fun _ => writeR8Then _ _ fun _ => next rfl

theorem shiftR8 (op : Byte → Bool → Byte × Bool) (r : R8) :
    StoresInOrder s (R8stores r s) (shiftR8 op r s) :=
  readR8Then _ fun _ => writeR8Then (s := s.setFlags _) _ _ fun _ => next rfl

theorem updateR8 (op : Byte → Byte) (r : R8) : StoresInOrder s (R8stores r s) (updateR8 op r s) :=
  readR8Then _ fun _ => writeR8Then _ _ fun _ => next rfl

theorem callTo (target retAddr : Word) : StoresInOrder s (pushStores s) (callTo target retAddr s) :=
  push16Then _ fun _ => next rfl

theorem returnTo : StoresInOrder s [] (returnTo s) := pop16Then fun _ _ => next rfl

theorem returnEnabled : StoresInOrder s [] (returnEnabled s) := pop16Then fun _ _ => next rfl

/-- A conditional transfer stores what the arm it takes stores. -/
theorem of_ite {c : Prop} [Decidable c] {as' : List Word} {r r' : Result} (h : StoresInOrder s as r)
    (h' : StoresInOrder s as' r') :
    StoresInOrder s (if c then as else as') (if c then r else r') := by
  split
  · exact h
  · exact h'

/-- An instruction writes the addresses its rule stores to, in that order. -/
theorem of_exec (i : Instr) (s : State) : StoresInOrder s (i.storeAddrs s) (exec i s) := by
  unfold exec
  cases i with
  | nop | ei | di | scf | ccf | cpl | daa | addHlRr | addSpE8 | ldHlSpE8 | ldSpHl | rlca | rrca | rla
  | rra | addAN8 | adcAN8 | subAN8 | sbcAN8 | andAN8 | xorAN8 | orAN8 | cpAN8 | jpN16 | jpHl | jrE8 =>
    exact next rfl
  | ldRrN16 rr | incRr rr | decRr rr => exact next (State.setPairSp_out s rr _)
  | addAR8 | adcAR8 | subAR8 | sbcAR8 | andAR8 | xorAR8 | orAR8 | cpAR8 | bitBR8 =>
    exact readR8Then _ fun _ => next rfl
  | ldABc | ldADe | ldAN16 | ldhAC | ldhAN8 | ldAHli | ldAHld => exact readThen _ fun _ => next rfl
  | jpCcN16 | jrCcE8 => exact ensures_ite (next rfl) (next rfl)
  | popRr rr => exact pop16Then fun _ t => next (State.setPairAf_out t rr _)
  | ret => exact returnTo
  | retCc => exact ensures_ite returnTo (next rfl)
  | reti => exact returnEnabled
  | ldRR => exact readR8Then _ fun _ => writeR8Then _ _ fun _ => next rfl
  | ldRN8 => exact writeR8Then _ _ fun _ => next rfl
  | ldRHl => exact readThen _ fun _ => writeR8Then _ _ fun _ => next rfl
  | incR8 | decR8 => exact modifyR8 _ _
  | rlcR8 | rrcR8 | rlR8 | rrR8 | slaR8 | sraR8 | swapR8 | srlR8 => exact shiftR8 _ _
  | resBR8 | setBR8 => exact updateR8 _ _
  | ldHlR => exact readR8Then _ fun _ => store _ _ _
  | ldHlN8 | ldN16A | ldBcA | ldDeA | ldhCA | ldhN8A => exact store _ _ _
  | ldHliA | ldHldA => exact writeThen _ _ fun _ => next rfl
  | ldN16Sp => exact writeThen _ _ fun _ => writeThen _ _ fun _ => next rfl
  | pushRr => exact push16Then _ fun _ => next rfl
  | callN16 | rstT => exact callTo _ _
  | callCcN16 => exact of_ite (callTo _ _) (next rfl)
  | illegal10 | illegal76 | illegalD3 | illegalDB | illegalDD | illegalE3 | illegalE4 | illegalEB
  | illegalEC | illegalED | illegalF4 | illegalFC | illegalFD => exact raise _

end StoresInOrder

end Sys2Proof.Machine
end

section
/-! What a whole step does to the boot mapping and the stores (20_memory.md R39, R47, R48). -/

namespace Sys2Proof.Machine

/-! ### The end of a step -/

theorem State.finish_writes (s : State) (arm : Bool) (n : Nat) :
    (s.finish arm n).out.writes = s.out.writes := by
  unfold State.finish State.advance
  cases arm
  all_goals
    dsimp only
    split <;> rfl

theorem State.finish_bootMapped (s : State) (arm : Bool) (n : Nat) :
    (s.finish arm n).bootMapped = s.bootMapped := by
  obtain ⟨_, _, _, _, _, -, heq⟩ := s.finish_eq arm n
  rw [heq]

theorem State.finish_mem (s : State) (arm : Bool) (n : Nat) : (s.finish arm n).mem = s.mem := by
  obtain ⟨_, _, _, _, _, -, heq⟩ := s.finish_eq arm n
  rw [heq]

/-! ### The step of the Cpu -/

/-- No step of the Cpu unmaps the boot ROM (20_memory.md R39). -/
theorem cpuStep_bootMapped {s t : State} (h : cpuStep s = .next t) : t.bootMapped = s.bootMapped :=
  cpuStep_ensures (P := fun u => u.bootMapped = s.bootMapped) rfl
    (fun hu hv => hv.bootMapped_eq.trans hu)
    (fun arm n hu => (State.finish_bootMapped _ arm n).trans hu) t h

/-- A turn of the Cpu is its step, the host's move made (60_exceptions.md R235). -/
theorem step_of_cpuTurn {s : State} (h : Spec.CpuTurn s) :
    step s = cpuStep { s with hostPlan := s.hostPlan.tail } := by
  obtain ⟨hf, hp | ⟨plan, hp⟩⟩ := h
  · have hs : { s with hostPlan := s.hostPlan.tail } = s := by rw [hp, List.tail_nil, ← hp]
    rw [hs, step, systemStep, hf, hp]
  · rw [step, systemStep, hf, hp, List.tail_cons]

/-- `u` has the decoder of `s` and the stores that the recorded writes of `u` make of those of `s`. -/
def State.WritesFrom (s u : State) : Prop :=
  (∀ a, u.route a = s.route a) ∧ u.mem = s.applyWrites s.mem u.out.writes

theorem State.WritesFrom.trans {w : Writes} {s u v : State} (hu : s.WritesFrom u)
    (hv : WritesOnly w u v) : s.WritesFrom v := by
  obtain ⟨hroute, hmem⟩ := hu
  obtain ⟨ws, hout, hmem'⟩ := hv.exists_writes
  refine ⟨fun a => (hv.route_eq a).trans (hroute a), ?_⟩
  rw [hout, State.applyWrites_append, ← hmem, hmem', State.applyWrites_congr hroute]

theorem State.WritesFrom.finish {s u : State} (hu : s.WritesFrom u) (arm : Bool) (n : Nat) :
    s.WritesFrom (u.finish arm n) := by
  obtain ⟨hroute, hmem⟩ := hu
  refine ⟨fun a => ?_, ?_⟩
  · rw [State.route_congr (u.finish_bootMapped arm n) (u.launch_finish arm n), hroute]
  · rw [State.finish_mem, State.finish_writes, hmem]

/-- The stores after a Cpu step are its recorded writes made in order (20_memory.md R47). -/
theorem cpuStep_writesFrom {s u t : State} (hu : s.WritesFrom u.begin) (h : cpuStep u = .next t) :
    s.WritesFrom t :=
  cpuStep_ensures hu State.WritesFrom.trans (fun arm n hv => State.WritesFrom.finish hv arm n) t h

/-! ### The observer -/

/-- The points an observer can see start before the first write (20_memory.md R48). -/
theorem State.observerPoints_head (s t : State) : (s.observerPoints t).head? = some s.mem := by
  simp [State.observerPoints, State.applyWrites, List.range_succ_eq_map]

/-- The points an observer can see end after the last write (20_memory.md R48). -/
theorem State.observerPoints_getLast (s t : State) :
    (s.observerPoints t).getLast? = some (s.applyWrites s.mem t.out.writes) := by
  simp [State.observerPoints, List.range_succ]

end Sys2Proof.Machine
end

section
/-! The statements of 20_memory.md, from the lemmas above. -/

namespace Sys2Proof.Proofs

open Machine Spec

/-- Settles O24: a write that is not fatal stores to the cell of its address, so what a read answers after
it depends on whether it names that cell. -/
theorem writeStoresExactlyOneByte : Obligations.WriteStoresExactlyOneByte := by
  intro s a v k
  refine ⟨fun hw => ?_, fun hw => ?_⟩
  · have hnone := (s.busWrite_eq_none a v).mpr hw
    exact ⟨hnone, writeThen_of_fatal hnone k⟩
  · obtain ⟨t, ht⟩ := s.busWrite_of_writable v hw
    refine ⟨t, ht, writeThen_of_write ht k, ?_, fun x => ?_⟩
    · obtain ⟨m, -, rfl⟩ := State.busWrite_eq_some ht
      rfl
    · split
      · next hx => exact State.busRead_busWrite_same ht hx
      · next hx => exact State.busRead_busWrite_ne ht hx

/-- Settles O25: the lowest address of a cell tells its names apart but for the echo, and a write through
one name is read through the other because both select the same cell. -/
theorem echoIsTheOnlyAlias : Obligations.EchoIsTheOnlyAlias := by
  refine ⟨fun s a b ha => ⟨s.eq_or_echo_of_route_eq ha, ?_⟩, fun s t a v hlo hhi => ?_⟩
  · rintro (rfl | ⟨hlo, hhi, rfl⟩ | ⟨hlo, hhi, rfl⟩)
    · rfl
    · exact (s.route_echo hlo hhi).symm
    · exact s.route_echo hlo hhi
  · have hecho := s.route_echo hlo hhi
    exact ⟨fun h => State.busRead_busWrite_same h hecho,
      fun h => State.busRead_busWrite_same h hecho.symm⟩

/-- Settles O26: a read is fatal where `readable` fails, a write where `writable` fails, and both are ranges
of addresses. -/
theorem fatalAccesses : Obligations.FatalAccesses := fun s a v =>
  ⟨fun k h => readThen_of_unmapped h k, fun k h => writeThen_of_fatal h k,
    (s.busRead_eq_none a).trans (s.readable_eq_false_iff a),
    (s.busWrite_eq_none a v).trans (writable_eq_false_iff a)⟩

/-- Settles O27: the decoder's cases are the rows. -/
theorem regionTable : Obligations.RegionTable := by
  intro s a
  simp only [State.busRead, State.route]
  refine ⟨fun h hb => ?_, fun h hb hl => ?_, ?_⟩
  · rw [if_pos ⟨h, hb⟩]; rfl
  · have hboot : ¬ (a.toNat ≤ 0x00FF ∧ s.bootMapped = true) := by
      rcases hb with hb | hb
      · simp [hb]
      · omega
    rw [if_neg hboot, if_pos h, if_pos hl]; rfl
  · refine ⟨?_, ?_, ?_, ?_, ?_, ?_, ?_, ?_, ?_⟩
    all_goals
      intros
      simp (disch := omega) only [if_neg, if_pos]
      rfl

/-- Settles O28: by induction on the length of the range, in the order of the bytes. -/
theorem readRange : Obligations.ReadRange := by
  intro s start stop hle
  have hle' : start.toNat ≤ stop.toNat := hle
  have hstop : stop.toNat < 0x10000 := stop.isLt
  rw [State.readRange, if_pos hle]
  refine ⟨fun h => ?_, fun x hsx hxs hx h => ?_⟩
  · obtain ⟨bs, hok, hlen, hget⟩ := s.readFrom_eq_ok (a := start) (n := stop.toNat - start.toNat + 1)
      fun k hk => by
        have hk' := toNat_add_ofNat (a := start) (k := k) (by omega)
        exact h _ (by rw [BitVec.le_def]; omega) (by rw [BitVec.le_def]; omega)
    exact ⟨bs, hok, hlen, hlen.symm ▸ hget⟩
  · have hsx' : start.toNat ≤ x.toNat := hsx
    have hxs' : x.toNat ≤ stop.toNat := hxs
    have hoff := add_ofNat_sub hsx
    refine (s.readFrom_eq_error (m := x.toNat - start.toNat) (by omega) (by rwa [hoff]) fun k hk => ?_).trans
      (congrArg _ hoff)
    have hk' := toNat_add_ofNat (a := start) (k := k) (by omega)
    exact h _ (by rw [BitVec.le_def]; omega) (by rw [BitVec.lt_def]; omega)

/-- Settles O18: the host's move clears the mapping; no update of a rule and no end of a step
touches it. -/
theorem bootRomUnmappedOnlyByHost : Obligations.BootRomUnmappedOnlyByHost := by
  refine ⟨fun s plan hf hp => ?_, fun s a hb ha => ?_, fun s t h hp => ?_, fun s t a v h => ?_⟩
  · simp only [step, systemStep, hf, hp]
    simp [begun, hp, State.begin, State.disableBoot, StepOut.empty]
  · obtain ⟨-, hcart, -⟩ := regionTable s a
    split
    · next hl => exact hcart (by omega) (.inl hb) hl
    · next hl =>
      have hboot : ¬ (a.toNat ≤ 0xFF ∧ s.bootMapped = true) := by simp [hb]
      rw [s.busRead_eq_none a, s.readable_eq_false_iff a]
      exact .inr ⟨by omega, hboot, by omega⟩
  · obtain ⟨-, ⟨plan, -, hcpu⟩ | ⟨plan, hplan, -⟩ | ⟨v, plan, -, -, rfl⟩⟩ := step_eq_next h
    · exact cpuStep_bootMapped (s := { s with hostPlan := plan }) hcpu
    · exact absurd hplan (hp plan)
    · rfl
  · obtain ⟨m, -, rfl⟩ := State.busWrite_eq_some h
    rfl

/-- Settles O21: every update of a rule keeps the stores those that the record makes. -/
theorem memoryIsItsWrites : Obligations.MemoryIsItsWrites := by
  intro s t hturn h
  rw [step_of_cpuTurn hturn] at h
  have hstart : s.WritesFrom { s with hostPlan := s.hostPlan.tail }.begin := ⟨fun _ => rfl, rfl⟩
  obtain ⟨-, hmem⟩ := cpuStep_writesFrom hstart h
  exact ⟨hmem, s.observerPoints_head t, hmem ▸ s.observerPoints_getLast t⟩

/-- Settles O59: the stores are the recorded writes made, and the record is the rule's addresses, or after
a raise the first of them. -/
theorem memoryFrame : Obligations.MemoryFrame := by
  intro i s t _ h
  obtain ⟨done, hpre, hout, hdone⟩ := StoresInOrder.of_exec i s t h
  refine ⟨fun a ha => ?_, fun hf => hdone hf ▸ hout⟩
  exact (exec_writesOnly i s t h).busRead_eq hout a fun x hx => ha x (hpre.subset hx)

end Sys2Proof.Proofs
end

section
/-! The encoding (30_encoding.md): which row of the table a key selects, what a row makes of the operand
bytes, and that the decoder reads exactly the well-formed encodings. -/

namespace Sys2Proof

open Machine (cat hi8 lo8)

/-! ### The rows of a key -/

/-- One row of the unprefixed page matches each byte but 0xCB, which has none (30_encoding.md R76). -/
theorem mainRows_matching_length : ∀ b : Byte,
    (mainRows.filter (·.matchesByte b)).length = if b = 0xCB then 0 else 1 := by
  decide +kernel

/-- One row of the prefixed page matches each byte (30_encoding.md R76). -/
theorem cbRows_matching_length : ∀ b : Byte, (cbRows.filter (·.matchesByte b)).length = 1 := by
  decide +kernel

theorem pageOf_matching_length_le (k : Key) :
    ((pageOf k).filter (·.matchesByte k.opcode)).length ≤ 1 := by
  obtain ⟨_ | _, b⟩ := k
  · refine (mainRows_matching_length b).trans_le ?_
    split <;> omega
  · exact (cbRows_matching_length b).le

/-- The row of a key is any row of its page that matches, because no two do (30_encoding.md R76). -/
theorem rowOf_eq_some {k : Key} {row : Row} :
    rowOf k = some row ↔ row ∈ pageOf k ∧ row.matchesByte k.opcode = true := by
  have hmem : row ∈ (pageOf k).filter (·.matchesByte k.opcode) ↔
      row ∈ pageOf k ∧ row.matchesByte k.opcode = true := List.mem_filter
  have hlen := pageOf_matching_length_le k
  rw [rowOf, ← List.head?_filter, ← hmem]
  generalize (pageOf k).filter (·.matchesByte k.opcode) = rows at hlen
  match rows, hlen with
  | [], _ => simp
  | [r], _ => simp [eq_comm]

/-- A key that has a row is one that a fetch can form (30_encoding.md R60). -/
theorem fetchable_of_rowOf {k : Key} {row : Row} (h : rowOf k = some row) :
    k.prefixed = true ∨ k.opcode ≠ Config.prefixByte := by
  obtain ⟨_ | _, op⟩ := k
  · refine .inr ?_
    rintro rfl
    cases h
  · exact .inl rfl

/-! ### The operand bytes of a form -/

/-- The form takes the operand bytes `ops` to the instruction `i` (30_encoding.md R61, R68). -/
def Form.Takes (ops : List Byte) (i : Instr) : Form → Prop
  | .op j => ops = [] ∧ i = j
  | .opN8 mk => ∃ n, ops = [n] ∧ i = mk n
  | .opN16 mk => ∃ n, ops = [lo8 n, hi8 n] ∧ i = mk n

/-- Only a form that waits for no byte takes none. -/
theorem Form.eq_op_of_takes_nil {fm : Form} {i : Instr} (h : fm.Takes [] i) : fm = .op i := by
  cases fm <;> simp_all [Takes]

theorem Form.complete_eq_ok {fm : Form} {bs rest : List Byte} {i : Instr} :
    fm.complete bs = .ok (i, rest) ↔ ∃ ops, fm.Takes ops i ∧ ops ++ rest = bs := by
  cases fm with
  | op j => simp [complete, Takes, eq_comm]
  | opN8 mk =>
    match bs with
    | [] => simp [complete, Takes]
    | n :: bs => simp [complete, Takes, eq_comm]
  | opN16 mk =>
    match bs with
    | [] => simp [complete, Takes]
    | [n] => simp [complete, Takes]
    | lo :: hi :: bs =>
      constructor
      · intro h
        obtain ⟨rfl, rfl⟩ : mk (cat hi lo) = i ∧ bs = rest := by simpa [complete] using h
        exact ⟨[lo, hi], ⟨cat hi lo, by simp, rfl⟩, rfl⟩
      · rintro ⟨_, ⟨n, rfl, rfl⟩, h⟩
        obtain ⟨rfl, rfl, rfl⟩ : lo8 n = lo ∧ hi8 n = hi ∧ rest = bs := by simpa using h
        simp [complete]

theorem decodeKey_eq_ok {k : Key} {bs rest : List Byte} {i : Instr} :
    decodeKey k bs = .ok (i, rest) ↔ ∃ row ops, rowOf k = some row ∧
      (row.form k.opcode).Takes ops i ∧ ops ++ rest = bs := by
  cases hrow : rowOf k <;> simp [decodeKey, hrow, Form.complete_eq_ok]

/-- What the decoder reads begins with the bytes of a key (30_encoding.md R60). -/
theorem exists_key_of_decode {bs : List Byte} {r : Instr × List Byte} (h : decode bs = .ok r) :
    ∃ k tail, k.bytes ++ tail = bs ∧ decodeKey k tail = .ok r := by
  unfold decode at h
  split at h
  · cases h
  · next b0 tail =>
    split at h
    · next hb0 =>
      split at h
      · cases h
      · next b1 tail => exact ⟨⟨true, b1⟩, tail, by simp [Key.bytes, hb0], h⟩
    · exact ⟨⟨false, b0⟩, tail, rfl, h⟩

/-- The decoder reads an instruction where the list is the bytes of a key that has a row, then operand
bytes that the form of the row takes to the instruction, then the rest (30_encoding.md R60, R73). -/
theorem decode_eq_ok {bs rest : List Byte} {i : Instr} :
    decode bs = .ok (i, rest) ↔ ∃ k row ops, rowOf k = some row ∧
      (row.form k.opcode).Takes ops i ∧ k.bytes ++ (ops ++ rest) = bs := by
  constructor
  · intro h
    obtain ⟨k, tail, rfl, hkey⟩ := exists_key_of_decode h
    obtain ⟨row, ops, hrow, ht, rfl⟩ := decodeKey_eq_ok.mp hkey
    exact ⟨k, row, ops, hrow, ht, rfl⟩
  · rintro ⟨k, row, ops, hrow, ht, rfl⟩
    rw [decode_key_bytes k _ (fetchable_of_rowOf hrow)]
    exact decodeKey_eq_ok.mpr ⟨row, ops, hrow, ht, rfl⟩

/-! ### From an instruction to its row -/

@[simp] theorem R8.ofCode_code (r : R8) : R8.ofCode r.code = r := by cases r <;> rfl

@[simp] theorem PairSp.ofCode_code (rr : PairSp) : PairSp.ofCode rr.code = rr := by cases rr <;> rfl

@[simp] theorem PairAf.ofCode_code (rr : PairAf) : PairAf.ofCode rr.code = rr := by cases rr <;> rfl

@[simp] theorem Cond.ofCode_code (cc : Cond) : Cond.ofCode cc.code = cc := by cases cc <;> rfl

@[simp] theorem fieldY_append (x : BitVec 2) (y z : BitVec 3) : fieldY (x ++ y ++ z) = y := by
  revert x y z; decide

@[simp] theorem opndY_append (x : BitVec 2) (r : R8) (z : BitVec 3) :
    opndY (x ++ r.code ++ z) = r := by simp [opndY]

@[simp] theorem opndZ_append (x : BitVec 5) (r : R8) : opndZ (x ++ r.code) = r := by
  revert x; cases r <;> decide

@[simp] theorem opndSp_append (x : BitVec 2) (rr : PairSp) (z : BitVec 4) :
    opndSp (x ++ rr.code ++ z) = rr := by
  revert x z; cases rr <;> decide

@[simp] theorem opndAf_append (x : BitVec 2) (rr : PairAf) (z : BitVec 4) :
    opndAf (x ++ rr.code ++ z) = rr := by
  revert x z; cases rr <;> decide

@[simp] theorem opndCc_append (x : BitVec 3) (cc : Cond) (z : BitVec 3) :
    opndCc (x ++ cc.code ++ z) = cc := by
  revert x z; cases cc <;> decide

/-- The place of an instruction's row in its page: the table has a row for each constructor of `Instr`, in
the same order, the prefixed page last. -/
def Instr.place (i : Instr) : Nat := i.ctorIdx - if i.key.prefixed then mainRows.length else 0

/-- The table has a row for the key of `i`, and its form takes the operand bytes of `i` to `i`. -/
def Instr.HasRow (i : Instr) : Prop :=
  ∃ row, rowOf i.key = some row ∧ (row.form i.key.opcode).Takes i.operandBytes i

/-- The row at the place of an instruction is its row if it matches the opcode byte and reads the operands
back. -/
theorem Instr.HasRow.of_place {i : Instr} {p : Bool} {op : Byte} {row : Row} (hk : i.key = ⟨p, op⟩)
    (hrow : (pageOf ⟨p, op⟩)[i.place]? = some row) (hm : row.matchesByte op = true)
    (ht : (row.form op).Takes i.operandBytes i := by simp [Form.Takes, Instr.operandBytes]) :
    i.HasRow := by
  refine ⟨row, rowOf_eq_some.mpr ?_, ?_⟩ <;> rw [hk]
  · exact ⟨List.mem_of_getElem? hrow, hm⟩
  · exact ht

/-- The row at the place of a well-formed instruction matches its opcode byte, and the fields of that byte
are its operands (30_encoding.md R62 to R66, R70 to R72). -/
theorem Instr.hasRow {i : Instr} (h : i.wellFormed = true) : i.HasRow := by
  cases i with
  | nop | ldBcA | ldDeA | ldHliA | ldHldA | rlca | rrca | rla | rra | ldABc | ldADe | ldAHli | ldAHld
  | illegal10 | daa | cpl | scf | ccf | illegal76 | ret | reti | ldhCA | ldhAC | jpHl | di | ei
  | ldSpHl | illegalD3 | illegalDB | illegalDD | illegalE3 | illegalE4 | illegalEB | illegalEC
  | illegalED | illegalF4 | illegalFC | illegalFD => exact .of_place rfl rfl rfl ⟨rfl, rfl⟩
  | ldHlN8 n | jrE8 n | addAN8 n | adcAN8 n | subAN8 n | sbcAN8 n | andAN8 n | xorAN8 n | orAN8 n
  | cpAN8 n | ldhN8A n | ldhAN8 n | addSpE8 n | ldHlSpE8 n
  | ldN16Sp n | jpN16 n | callN16 n | ldN16A n | ldAN16 n => exact .of_place rfl rfl rfl ⟨n, rfl, rfl⟩
  | incRr rr | addHlRr rr | decRr rr | popRr rr | pushRr rr | ldRrN16 rr =>
    exact .of_place rfl rfl (by cases rr <;> rfl)
  | retCc cc | jrCcE8 cc | jpCcN16 cc | callCcN16 cc =>
    exact .of_place rfl rfl (by cases cc <;> rfl)
  | incR8 r | decR8 r | addAR8 r | adcAR8 r | subAR8 r | sbcAR8 r | andAR8 r | xorAR8 r | orAR8 r
  | cpAR8 r | rlcR8 r | rrcR8 r | rlR8 r | rrR8 r | slaR8 r | sraR8 r | swapR8 r | srlR8 r =>
    exact .of_place rfl rfl (by cases r <;> rfl)
  | ldRN8 r | ldRHl r | ldHlR r =>
    have hr : r != .mhl := h
    exact .of_place rfl rfl (by revert hr; cases r <;> decide)
  | ldRR r q =>
    exact .of_place rfl rfl (by revert h; cases r <;> cases q <;> decide)
  | rstT t => exact .of_place rfl rfl (by revert t; decide)
  | bitBR8 b r | resBR8 b r | setBR8 b r =>
    exact .of_place rfl rfl (by revert b; cases r <;> decide)

/-! ### From a row to its instructions -/

/-- The instruction of a form whose operand bytes are zero. -/
def Form.sample : Form → Instr
  | .op i => i
  | .opN8 mk => mk 0
  | .opN16 mk => mk 0

/-- What the form makes has the operand bytes it takes, and neither its key nor its well-formedness depends
on them. -/
inductive Form.Uniform : Form → Prop
  | op {i : Instr} (bytes : i.operandBytes = []) : Uniform (.op i)
  | opN8 {mk : Byte → Instr} (bytes : ∀ n, (mk n).operandBytes = [n])
      (key : ∀ n, (mk n).key = (mk 0).key) (wf : ∀ n, (mk n).wellFormed = (mk 0).wellFormed) :
      Uniform (.opN8 mk)
  | opN16 {mk : Word → Instr} (bytes : ∀ n, (mk n).operandBytes = [lo8 n, hi8 n])
      (key : ∀ n, (mk n).key = (mk 0).key) (wf : ∀ n, (mk n).wellFormed = (mk 0).wellFormed) :
      Uniform (.opN16 mk)

theorem table_uniform (op : Byte) : ∀ row ∈ mainRows ++ cbRows, (row.form op).Uniform := by
  refine List.forall_iff_forall_mem.mp ?_
  repeat' constructor
  all_goals exact fun _ => rfl

theorem mem_table_of_mem_pageOf {k : Key} {row : Row} (h : row ∈ pageOf k) : row ∈ mainRows ++ cbRows := by
  rw [pageOf] at h
  split at h
  · exact List.mem_append_right _ h
  · exact List.mem_append_left _ h

/-- With zero operand bytes, what the row of a key makes of its opcode byte is well formed and has that
key. -/
theorem rowOf_sample : ∀ (p : Bool) (op : Byte), (rowOf ⟨p, op⟩).all (fun row =>
    (row.form op).sample.wellFormed && (row.form op).sample.key == ⟨p, op⟩) = true := by
  decide +kernel

/-- Whatever the row of a key makes of its opcode byte is well formed, and its encoding is the key and the
operand bytes taken. -/
theorem encoding_of_takes {k : Key} {row : Row} {ops : List Byte} {i : Instr}
    (hrow : rowOf k = some row) (ht : (row.form k.opcode).Takes ops i) :
    i.wellFormed = true ∧ i.key = k ∧ i.operandBytes = ops := by
  have huniform := table_uniform k.opcode row (mem_table_of_mem_pageOf (rowOf_eq_some.mp hrow).1)
  have hsample := rowOf_sample k.prefixed k.opcode
  rw [hrow, Option.all_some, Bool.and_eq_true, beq_iff_eq] at hsample
  obtain ⟨hwf, hkey⟩ := hsample
  generalize row.form k.opcode = fm at ht hwf hkey huniform
  cases huniform with
  | op bytes =>
    obtain ⟨rfl, rfl⟩ := ht
    exact ⟨hwf, hkey, bytes⟩
  | opN8 bytes key wf | opN16 bytes key wf =>
    obtain ⟨n, rfl, rfl⟩ := ht
    exact ⟨(wf n).trans hwf, (key n).trans hkey, bytes n⟩

/-- The decoder reads exactly the well-formed encodings. -/
theorem decode_eq_ok_iff_encode {bs rest : List Byte} {i : Instr} :
    decode bs = .ok (i, rest) ↔ i.wellFormed = true ∧ encode i ++ rest = bs := by
  rw [decode_eq_ok, encode, List.append_assoc]
  constructor
  · rintro ⟨k, row, ops, hrow, ht, hbs⟩
    obtain ⟨hwf, rfl, rfl⟩ := encoding_of_takes hrow ht
    exact ⟨hwf, hbs⟩
  · rintro ⟨hwf, hbs⟩
    obtain ⟨row, hrow, ht⟩ := Instr.hasRow hwf
    exact ⟨i.key, row, i.operandBytes, hrow, ht, hbs⟩

end Sys2Proof
end

section
/-! The unrecognized keys (30_encoding.md R69, R71, R73): which they are, and that fetching one latches the
decode error and does nothing else. -/

namespace Sys2Proof.Machine

open Spec

/-! ### Which keys they are -/

/-- With `DISPATCH_EXT` the thirteen bytes are missing from the table, without it all but group S
(30_encoding.md R69 to R71). -/
theorem plain_recognized : ∀ op : Byte, op ≠ 0xCB →
    ((⟨false, op⟩ : Key).recognized true = false ↔ op ∈ unassigned) ∧
    ((⟨false, op⟩ : Key).recognized false = true ↔ op ∈ groupS) := by
  decide +kernel

theorem prefixed_recognized : ∀ op : Byte, (⟨true, op⟩ : Key).recognized true = true ∧
    ((⟨true, op⟩ : Key).recognized false = true ↔ 0x40 ≤ op.toNat ∧ op.toNat ≤ 0x7F) := by
  decide +kernel

/-! ### The ILLEGAL rows -/

theorem illegalRow_encoding : ∀ r ∈ illegalRows,
    r.1.wellFormed = true ∧ r.1.key = ⟨false, r.2⟩ ∧ r.1.operandBytes = [] := by
  decide

theorem exec_illegalRow {r : Instr × Byte} (h : r ∈ illegalRows) (s : State) :
    exec r.1 s = unknownOpcode ⟨false, r.2⟩ s := by
  fin_cases h <;> rfl

/-- A row that no dispatch table has is the ILLEGAL row of one of the thirteen bytes (30_encoding.md R71). -/
theorem form_of_unassigned {k : Key} {row : Row} (hrow : rowOf k = some row)
    (hg : row.group = .unassigned) :
    ∃ i, (i, k.opcode) ∈ illegalRows ∧ k.prefixed = false ∧ row.form k.opcode = .op i := by
  have hrec : k.recognized true = false := by simp [Key.recognized, hrow, hg, Group.inTable]
  obtain ⟨_ | _, op⟩ := k
  · have hop : op ≠ Config.prefixByte := by simpa using fetchable_of_rowOf hrow
    have hmem : op ∈ illegalRows.map Prod.snd := (plain_recognized op hop).1.mp hrec
    obtain ⟨⟨i, op'⟩, hi, hop'⟩ := List.mem_map.mp hmem
    obtain rfl : op' = op := hop'
    obtain ⟨hwf, hkey, hops⟩ : i.wellFormed = true ∧ i.key = ⟨false, op'⟩ ∧ i.operandBytes = [] :=
      illegalRow_encoding _ hi
    obtain ⟨row', hrow', ht⟩ := Instr.hasRow hwf
    rw [hkey] at hrow' ht
    obtain rfl : row' = row := Option.some.inj (hrow'.symm.trans hrow)
    exact ⟨i, hi, rfl, Form.eq_op_of_takes_nil (hops ▸ ht)⟩
  · rw [(prefixed_recognized op).1] at hrec
    cases hrec

/-! ### Fetching one -/

theorem fetchThen_of_keyAt {s : State} {k : Key} (h : KeyAt s s.pc k) (f : Instr → Result) :
    fetchThen s f = dispatchThen k s f := by
  obtain ⟨_ | _, op⟩ := k
  · obtain ⟨hop, hne⟩ : s.busRead s.pc = some op ∧ op ≠ Config.prefixByte := h
    rw [fetchThen, readThen_of_read hop, if_neg hne]
  · obtain ⟨h0, h1⟩ : s.busRead s.pc = some Config.prefixByte ∧ s.busRead (s.pc + 1) = some op := h
    rw [fetchThen, readThen_of_read h0, if_pos rfl, readThen_of_read h1]

/-- The decoder raises on an unrecognized key, or it goes on to the ILLEGAL row of the key. -/
theorem dispatchThen_of_unrecognized {s : State} {k : Key}
    (h : k.recognized s.launch.dispatchExt = false) (f : Instr → Result) :
    dispatchThen k s f = unknownOpcode k s ∨
      ∃ i, (i, k.opcode) ∈ illegalRows ∧ k.prefixed = false ∧ dispatchThen k s f = f i := by
  unfold dispatchThen
  split
  · exact .inl rfl
  · next row hrow =>
    split
    · exact .inl rfl
    · next hx =>
      have hg : row.group = .unassigned := by
        simp only [Key.recognized, hrow] at h
        cases hgroup : row.group <;> simp_all [Group.inTable]
      obtain ⟨i, hi, hp, hform⟩ := form_of_unassigned hrow hg
      exact .inr ⟨i, hi, hp, by rw [hform]; rfl⟩

/-- A step that fetches an unrecognized key ends in the decode error (30_encoding.md R73,
60_exceptions.md R202). -/
theorem executeThen_of_unrecognized {s : State} {k : Key} (hk : KeyAt s s.pc k)
    (h : k.recognized s.launch.dispatchExt = false) (arm : Bool) (spent : Nat) :
    executeThen arm spent s = .next (s.raise (.unknownOpcode k)) := by
  rw [executeThen, fetchThen_of_keyAt hk]
  obtain hraise | ⟨i, hi, hp, hthen⟩ := dispatchThen_of_unrecognized h _
  · exact hraise
  · obtain ⟨_, op⟩ := k
    obtain rfl := hp
    rw [hthen, exec_illegalRow hi]
    exact afterExec_of_raise rfl

end Sys2Proof.Machine
end

section
/-! The statements of 30_encoding.md, from the lemmas above. -/

namespace Sys2Proof.Proofs

open Machine Spec

/-- Settles O4: the row at the place of the instruction's constructor is the row of its key, and reads the
operands back. -/
theorem decodeEncodeRoundTrip : Obligations.DecodeEncodeRoundTrip := fun _ _ hwf =>
  decode_eq_ok_iff_encode.mpr ⟨hwf, rfl⟩

/-- Settles O5: what the row of a key makes of its opcode byte has that key, whatever the operand bytes. -/
theorem decodedBytesAreTheEncoding : Obligations.DecodedBytesAreTheEncoding := fun _ _ _ h =>
  decode_eq_ok_iff_encode.mp h

/-- Settles O11: the keys byte by byte; the ILLEGAL rows are well formed, so they decode; a fetched key
either has no row in the table or goes on to an ILLEGAL row, and both raise. -/
theorem unrecognizedOpcodeIsFatal : Obligations.UnrecognizedOpcodeIsFatal := by
  refine ⟨plain_recognized, prefixed_recognized, fun row hrow => ?_, fun s k hturn hp hk h => ?_⟩
  · obtain ⟨hwf, hkey, hops⟩ := illegalRow_encoding row hrow
    have henc : encode row.1 = [row.2] := by simp [encode, hkey, hops, Key.bytes]
    exact ⟨henc, decode_eq_ok_iff_encode.mpr ⟨hwf, by simp [henc]⟩, exec_illegalRow hrow⟩
  · have hpend : { s with hostPlan := s.hostPlan.tail }.pending = none := hp
    rw [step_of_cpuTurn hturn, cpuStep, hpend]
    exact executeThen_of_unrecognized (s := begun s) hk h s.imePending 0

/-- Settles O6, byte by byte. -/
theorem oneRowPerOpcodeByte : Obligations.OneRowPerOpcodeByte :=
  ⟨rfl, mainRows_matching_length, cbRows_matching_length⟩

/-- Settles O7: each word is the encoding of its instruction. -/
theorem specWordsDecode : Obligations.SpecWordsDecode := by
  simp only [Obligations.SpecWordsDecode, decode_eq_ok_iff_encode]
  decide

/-- Settles O33: the codes one by one, each operand and condition by its meaning. -/
theorem operandCodes : Obligations.OperandCodes := by
  intro s
  refine ⟨rfl, fun r k => ?_, fun r v k => ?_, rfl, rfl, fun cc => ?_, rfl⟩
  · cases r <;> rfl
  · cases r <;> rfl
  · cases cc <;> rfl

end Sys2Proof.Proofs
end

section
/-! What the rules of 40_source_named.md and the statements about them share: the encoding of a row, an
`r8` operand that is used or modified, the stack, and the flags as numbers. -/

namespace Sys2Proof.Machine

open Spec

/-! ### The encoding part of a rule -/

/-- A well-formed instruction whose key, bytes, group and two default costs are these is coded so: the
decoder reads what the encoder writes, and a launch without `COST` entries charges the default. -/
theorem coded_of_encode {i : Instr} {p : Bool} {op : Byte} {bs : List Byte} {g : Group}
    {cost untaken : Nat} (hwf : i.wellFormed = true) (hkey : i.key = ⟨p, op⟩) (henc : encode i = bs)
    (hgroup : (rowOf ⟨p, op⟩).map Row.group = some g)
    (hcost : defaultCost i true = cost) (huntaken : defaultCost i false = untaken) :
    Coded i bs g cost untaken := by
  refine ⟨henc, decode_eq_ok_iff_encode.mpr ⟨hwf, by rw [henc, List.append_nil]⟩,
    Option.map_eq_some_iff.mp (hkey ▸ hgroup), fun l hl => ?_⟩
  simp [Launch.cost, hl, hcost, huntaken]

/-! ### The condition and the branch target -/

theorem State.cond_eq_condHolds (s : State) (cc : Cond) : s.cond cc = condHolds s cc :=
  let ⟨_, _, _, _, _, hcond, _⟩ := Proofs.operandCodes s
  hcond cc

/-- The branch target as an integer (46_ext_control.md R172). -/
theorem State.relative_eq_ofInt (s : State) (e : Byte) :
    s.relative e = BitVec.ofInt 16 (s.pc.toNat + 2 + e.toInt) := by
  rw [BitVec.ofInt_add, BitVec.ofInt_add, BitVec.ofInt_natCast, BitVec.ofNat_toNat, BitVec.setWidth_eq]
  rfl

/-- A jump that chooses between two targets. -/
theorem ite_next_setPc (s : State) (taken : Bool) (x y : Word) :
    (if taken then .next (s.setPc x) else .next (s.setPc y) : Result) =
      .next { s with pc := if taken then x else y } := by
  cases taken <;> rfl

/-! ### Flags as numbers -/

theorem Flags.pack_eq_flagByte (z n h c : Bool) : Flags.pack ⟨z, n, h, c⟩ = flagByte z n h c := by
  revert z n h c; decide

/-- The masked byte as an integer (10_state.md R12). -/
theorem mask_eq_byteOf (v : Byte) : v &&& 0xF0 = byteOf (v.toNat / 16 * 16) := by
  revert v; decide

/-- The mask leaves a byte whose low nibble is zero as it is (10_state.md R12). -/
theorem mask_of_low_eq_zero {v : Byte} (h : v &&& 0x0F = 0) : v &&& 0xF0 = v := by
  revert v; decide

theorem inc8_eq (v : Byte) (old : Flags) : inc8 v old =
    (byteOf (v.toNat + 1), ⟨decide (v.toNat = 0xFF), false, decide (v.toNat % 16 = 15), old.c⟩) := by
  have key : ∀ v : Byte, v + 1 = byteOf (v.toNat + 1) ∧
      (v + 1 == 0) = decide (v.toNat = 0xFF) ∧
      (v &&& 0x0F == 0x0F) = decide (v.toNat % 16 = 15) := by decide
  obtain ⟨hval, hz, hh⟩ := key v
  simp only [inc8, hz, hh]
  rw [hval]

theorem dec8_eq (v : Byte) (old : Flags) : dec8 v old =
    (byteOf (v.toNat + 255), ⟨decide (v.toNat = 1), true, decide (v.toNat % 16 = 0), old.c⟩) := by
  have key : ∀ v : Byte, v - 1 = byteOf (v.toNat + 255) ∧
      (v - 1 == 0) = decide (v.toNat = 1) ∧
      (v &&& 0x0F == 0x00) = decide (v.toNat % 16 = 0) := by decide
  obtain ⟨hval, hz, hh⟩ := key v
  simp only [dec8, hz, hh]
  rw [hval]

/-- The complement of a bit as an integer test (40_source_named.md R85). -/
theorem not_getLsbD_eq_decide (v : Byte) (k : Nat) : (!v.getLsbD k) = decide (v.toNat / 2 ^ k % 2 = 0) := by
  rw [BitVec.getLsbD, Nat.testBit_eq_decide_div_mod_eq, ← decide_not]
  exact decide_eq_decide.mpr Nat.mod_two_ne_one

/-! ### An `r8` operand -/

section

variable {i : Instr} {s : State} {r : R8}

/-- Only the read of `(HL)` can fail (30_encoding.md R63). -/
theorem State.r8_of_readable (h : r = .mhl → s.readable s.hl = true) : ∃ v, s.r8 r = some v := by
  cases r
  case mhl => exact s.busRead_of_readable (h rfl)
  all_goals exact ⟨_, rfl⟩

/-- An instruction that reads the operand and ends in `t` of it. -/
theorem usesOperand_of_exec {t : Byte → State} (h : exec i s = readR8Then r s fun v => .next (t v)) :
    UsesOperand i s r t := by
  refine ⟨fun hread => ?_, ?_⟩
  · obtain ⟨v, hv⟩ := State.r8_of_readable hread
    exact ⟨v, hv, h.trans (readR8Then_of_read hv _)⟩
  · rintro rfl hread
    exact h.trans (readThen_of_unmapped ((s.busRead_eq_none _).mpr hread) _)

/-- An instruction that reads the operand, writes it back and ends in `after`; `pc` is still the old one
after the write back. -/
theorem modifiesOperand_of_exec {val : Byte → Byte} {k : Byte → State → Result}
    {after : Byte → State → State}
    (h : exec i s = readR8Then r s fun v => writeR8Then r (val v) s (k v))
    (hk : ∀ v u, u.pc = s.pc → k v u = .next (after v u)) :
    ModifiesOperand i s r val (fun _ => s) after := by
  refine ⟨fun hr => ?_, ?_, ?_⟩
  · obtain ⟨v, hv⟩ := s.r8_of_readable (r := r) (absurd · hr)
    obtain ⟨-, -, hwrite, -⟩ := Proofs.operandCodes s
    have hpc : (putReg s r (val v)).pc = s.pc := by cases r <;> rfl
    exact ⟨v, hv, by rw [h, readR8Then_of_read hv, hwrite, if_neg hr, hk v _ hpc]⟩
  · rintro rfl hread
    exact h.trans (readThen_of_unmapped ((s.busRead_eq_none _).mpr hread) _)
  · rintro rfl hread
    obtain ⟨v, hv⟩ := s.busRead_of_readable hread
    have hexec : exec i s = writeThen s s.hl (val v) (k v) := h.trans (readThen_of_read hv _)
    refine ⟨v, hv, fun hw => ?_, fun hw => ?_⟩
    · obtain ⟨u, hu⟩ := s.busWrite_of_writable (val v) hw
      obtain ⟨m, -, rfl⟩ := State.busWrite_eq_some hu
      exact ⟨_, hu, by rw [hexec, writeThen_of_write hu, hk v _ (State.stored_pc s m _ _)]⟩
    · exact hexec.trans (writeThen_of_fatal ((s.busWrite_eq_none _ _).mpr hw) _)

/-- INC and DEC: the result and the packed flags of `op` (40_source_named.md R82, R83). -/
theorem modifiesOperand_of_modifyR8 {op : Byte → Flags → Byte × Flags} (h : exec i s = modifyR8 op r s) :
    ModifiesOperand i s r (fun v => (op v s.flags).1) (fun _ => s) fun v u =>
      { u with f := (op v s.flags).2.pack, pc := s.pc + 1 } :=
  modifiesOperand_of_exec h fun v u hpc => by rw [← hpc]; rfl

end

/-! ### The stack -/

theorem sub_one_sub_one (w : Word) : w - 1 - 1 = w - 2 := by rw [BitVec.sub_sub]; rfl

section

variable (s : State) (w : Word)

/-- Everything a push can do (40_source_named.md R86): a raise at either write, or what follows runs in the
state after both, whose `pc` is the old one. -/
theorem afterPush_push16Then {k : State → Result} {done : State → Prop}
    (hdone : ∀ u, u.pc = s.pc → push16Then w s k = k u → done u) :
    AfterPush s w (push16Then w s k) done := by
  refine ⟨fun h₁ => writeThen_of_fatal ((State.busWrite_eq_none _ _ _).mpr h₁) _, fun h₁ => ?_⟩
  obtain ⟨u, hu⟩ := (s.setSp (s.sp - 1)).busWrite_of_writable (hi8 w) h₁
  have hfirst := writeThen_of_write hu fun u => writeThen (u.setSp (u.sp - 1)) (u.sp - 1) (lo8 w) k
  obtain ⟨m, -, rfl⟩ := State.busWrite_eq_some hu
  rw [State.stored_sp, State.setSp_sp, sub_one_sub_one] at hfirst
  refine ⟨_, hu, fun h₂ => ?_, fun h₂ => ?_⟩
  · exact hfirst.trans (writeThen_of_fatal ((State.busWrite_eq_none _ _ _).mpr h₂) _)
  · obtain ⟨u', hu'⟩ := State.busWrite_of_writable (State.setSp _ (s.sp - 2)) (lo8 w) h₂
    have hsecond := hfirst.trans (writeThen_of_write hu' k)
    refine ⟨u', hu', hdone u' ?_ hsecond⟩
    obtain ⟨m', -, rfl⟩ := State.busWrite_eq_some hu'
    rfl

/-- Everything a pop can do (40_source_named.md R87): a raise at either read, or what follows runs with the
popped word and `sp` moved by 2. -/
theorem afterPop_pop16Then {k : Word → State → Result} {done : Word → State → Prop}
    (hdone : ∀ x, pop16Then s k = k x (s.setSp (s.sp + 2)) → done x (s.setSp (s.sp + 2))) :
    AfterPop s (pop16Then s k) done := by
  refine ⟨fun h₁ => ?_, fun h₁ h₂ => ?_, fun h₁ h₂ => ?_⟩
  · exact readThen_of_unmapped ((s.busRead_eq_none _).mpr h₁) _
  · obtain ⟨lo, hlo⟩ := s.busRead_of_readable h₁
    exact (readThen_of_read hlo _).trans
      (readThen_of_unmapped (s := s.setSp (s.sp + 1)) ((s.busRead_eq_none _).mpr h₂) _)
  · obtain ⟨lo, hlo⟩ := s.busRead_of_readable h₁
    obtain ⟨hi, hhi⟩ := s.busRead_of_readable h₂
    exact ⟨lo, hi, hlo, hhi, hdone _ (pop16Then_of_read k hlo hhi)⟩

variable {s w}

/-- A push that does not raise has both its addresses writable (40_source_named.md R86). -/
theorem writable_of_push16Then {k : State → Result} {t : State} (h : push16Then w s k = .next t)
    (hf : t.fault = none) : writable (s.sp - 1) = true ∧ writable (s.sp - 2) = true := by
  have hraise : ∀ {u : State} {a : Word}, Host.Outcome.next t ≠ (.next (faulted u a) : Result) := by
    rintro u a ⟨⟩
    cases hf
  obtain ⟨hfirst, hrest⟩ : AfterPush s w (.next t) fun _ => True :=
    h ▸ afterPush_push16Then s w (k := k) fun _ _ _ => trivial
  have h₁ : writable (s.sp - 1) = true := Bool.eq_true_of_not_eq_false fun hw => hraise (hfirst hw)
  obtain ⟨u, -, hsecond, -⟩ := hrest h₁
  exact ⟨h₁, Bool.eq_true_of_not_eq_false fun hw => hraise (hsecond hw)⟩

/-- After a push that does not raise, wherever `pc` goes next, a pop answers the word pushed and the old
`sp`; only `sp`, the stores and the record differ from before (40_source_named.md R86, R87). -/
theorem pop16Then_after_push16Then {k : State → Result} {t : State} (h : push16Then w s k = .next t)
    (hf : t.fault = none) :
    ∃ u, k u = .next t ∧ u = { s with sp := u.sp, mem := u.mem, out := u.out } ∧
      ∀ (x : Word) (k' : Word → State → Result),
        pop16Then (u.setPc x) k' = k' w ((u.setPc x).setSp s.sp) := by
  obtain ⟨h₁, h₂⟩ := writable_of_push16Then h hf
  obtain ⟨u, hrun, hhi, hlo, -, hu⟩ := push16Then_of_writable w k h₁ h₂
  have hsp : u.sp = s.sp - 2 := by rw [hu]
  refine ⟨u, hrun.symm.trans h, ?_, fun x k' => ?_⟩
  · rw [hu]
  · have hlo' : (u.setPc x).busRead (u.setPc x).sp = some (lo8 w) := by
      rw [State.setPc_busRead, State.setPc_sp, hsp, hlo]
    have hhi' : (u.setPc x).busRead ((u.setPc x).sp + 1) = some (hi8 w) := by
      rw [State.setPc_busRead, State.setPc_sp, hsp, ← sub_one_sub_one, BitVec.sub_add_cancel, hhi]
    rw [pop16Then_of_read k' hlo' hhi', cat_hi8_lo8, State.setPc_sp, hsp, BitVec.sub_add_cancel]

end

/-! ### The transfers and the stack instructions -/

theorem pushRr_afterPush (rr : PairAf) (s : State) :
    AfterPush s (s.pairAf rr) (exec (.pushRr rr) s) fun u =>
      exec (.pushRr rr) s = .next { u with pc := s.pc + 1 } :=
  afterPush_push16Then s _ fun u hpc h => h.trans (by rw [← hpc]; rfl)

theorem popRr_afterPop (rr : PairAf) (s : State) :
    AfterPop s (exec (.popRr rr) s) fun w u =>
      exec (.popRr rr) s = .next ((u.setPairAf rr w).setPc (s.pc + 1)) :=
  afterPop_pop16Then s (k := fun w t => .next ((t.setPairAf rr w).bumpPc 1)) fun w h =>
    h.trans (by cases rr <;> rfl)

theorem callTo_afterPush (target retAddr : Word) (s : State) :
    AfterPush s retAddr (callTo target retAddr s) fun u =>
      callTo target retAddr s = .next { u with pc := target } :=
  afterPush_push16Then s _ fun _ _ h => h

theorem reti_afterPop (s : State) :
    AfterPop s (exec .reti s) fun w u =>
      exec .reti s = .next { u with pc := w, ime := true, imePending := false } :=
  afterPop_pop16Then s (k := fun w t => .next ((t.setPc w).setMasterEnable true)) fun _ h => h

theorem returnTo_afterPop (s : State) :
    AfterPop s (returnTo s) fun w u => returnTo s = .next { u with pc := w } :=
  afterPop_pop16Then s fun _ h => h

/-- A conditional call is the call where its condition holds (46_ext_control.md R174). -/
theorem exec_callCcN16 (cc : Cond) (n : Word) (s : State) : exec (.callCcN16 cc n) s =
    if condHolds s cc then callTo n (s.pc + 3) s else .next { s with pc := s.pc + 3 } :=
  s.cond_eq_condHolds cc ▸ rfl

/-- A conditional return is the return where its condition holds (46_ext_control.md R175). -/
theorem exec_retCc (cc : Cond) (s : State) : exec (.retCc cc) s =
    if condHolds s cc then returnTo s else .next { s with pc := s.pc + 1 } :=
  s.cond_eq_condHolds cc ▸ rfl

/-- A pair that is given the value it has stays as it is, AF because the low nibble of `f` is zero
(40_source_named.md R87, 10_state.md R12). -/
theorem State.setPairAf_pairAf (rr : PairAf) {s : State} (h : LowNibbleZero s) :
    s.setPairAf rr (s.pairAf rr) = s := by
  cases rr
  case af =>
    have hf : s.f &&& 0xF0#8 = s.f := mask_of_low_eq_zero h
    simp [State.setPairAf, State.pairAf, State.setAf, State.af, hf]
  all_goals simp [State.setPairAf, State.pairAf, State.setBc, State.bc, State.setDe, State.de,
    State.setHl, State.hl]

/-- RET after a call that did not raise goes to the address the call pushed and takes `sp` back
(40_source_named.md R88, R89). -/
theorem exec_ret_after_callTo {target retAddr : Word} {s t : State}
    (h : callTo target retAddr s = .next t) (hf : t.fault = none) :
    exec .ret t = .next { t with pc := retAddr, sp := s.sp } := by
  obtain ⟨u, hu, -, hpop⟩ := pop16Then_after_push16Then h hf
  obtain rfl : u.setPc target = t := Host.Outcome.next.inj hu
  exact hpop target fun w t => .next (t.setPc w)

end Sys2Proof.Machine
end

section
/-! The statements of 40_source_named.md, from the lemmas above. -/

namespace Sys2Proof.Proofs

open Machine Spec

/-- Settles O39: a push and a pop do what `AfterPush` and `AfterPop` list, whatever the pair. -/
theorem pushAndPop : Obligations.PushAndPop := by
  refine ⟨fun rr => ⟨?_, ?_⟩, fun s => ?_, fun s => ?_⟩
  · exact coded_of_encode rfl rfl (by cases rr <;> rfl) (by cases rr <;> decide) rfl rfl
  · exact coded_of_encode rfl rfl (by cases rr <;> rfl) (by cases rr <;> decide) rfl rfl
  · exact ⟨pushRr_afterPush .bc s, pushRr_afterPush .de s, pushRr_afterPush .hl s,
      pushRr_afterPush .af s⟩
  · refine ⟨popRr_afterPop .bc s, popRr_afterPop .de s, popRr_afterPop .hl s, ?_⟩
    simp only [← mask_eq_byteOf]
    exact popRr_afterPop .af s

/-- Settles O40: the pop answers the pair that was pushed, and the pair already has that value. -/
theorem pushThenPopRestores : Obligations.PushThenPopRestores := by
  intro rr s t _ hlow h hf
  obtain ⟨u, hu, hus, hpop⟩ := pop16Then_after_push16Then h hf
  obtain rfl : u.setPc (u.pc + 1) = t := Host.Outcome.next.inj hu
  have hpair : s.pairAf rr = ((u.setPc (u.pc + 1)).setSp s.sp).pairAf rr := by
    rw [hus]; cases rr <;> rfl
  have hlow' : LowNibbleZero ((u.setPc (u.pc + 1)).setSp s.sp) := by rw [hus]; exact hlow
  have hpc : u.pc + 1 + 1 = s.pc + 2 := by rw [hus, BitVec.add_assoc]; rfl
  refine (hpop (u.pc + 1) fun w t => .next ((t.setPairAf rr w).bumpPc 1)).trans ?_
  rw [hpair, State.setPairAf_pairAf rr hlow', ← hpc]
  rfl

/-- Settles O41: each call is `callTo`, the conditional one where its condition holds. -/
theorem calls : Obligations.Calls := by
  refine ⟨fun n => ⟨?_, fun s => callTo_afterPush n _ s⟩, fun cc n => ⟨?_, fun s => ?_⟩,
    fun t => ⟨?_, fun s => callTo_afterPush _ _ s⟩⟩
  · exact coded_of_encode rfl rfl rfl (by decide) rfl rfl
  · exact coded_of_encode rfl rfl (by cases cc <;> rfl) (by cases cc <;> decide) rfl rfl
  · rw [exec_callCcN16]
    refine ⟨s.cond_eq_condHolds cc, fun h => ?_, fun h => by simp [h]⟩
    rw [if_pos h]; exact callTo_afterPush n _ s
  · exact coded_of_encode rfl rfl (by revert t; decide) (by revert t; decide) rfl rfl

/-- Settles O42: each return is a pop into `pc`, the conditional one where its condition holds. -/
theorem returns : Obligations.Returns := by
  refine ⟨⟨coded_of_encode rfl rfl rfl (by decide) rfl rfl, returnTo_afterPop⟩, fun cc => ⟨?_, fun s => ?_⟩,
    coded_of_encode rfl rfl rfl (by decide) rfl rfl, reti_afterPop⟩
  · exact coded_of_encode rfl rfl (by cases cc <;> rfl) (by cases cc <;> decide) rfl rfl
  · rw [exec_retCc]
    refine ⟨s.cond_eq_condHolds cc, fun h => ?_, fun h => by simp [h]⟩
    rw [if_pos h]; exact returnTo_afterPop s

/-- Settles O43: each of the calls pushes the address its length leads to. -/
theorem callThenReturn : Obligations.CallThenReturn := by
  rintro i s t (⟨n, rfl⟩ | ⟨cc, n, rfl, hcc⟩ | ⟨slot, rfl⟩) _ h hf
  · exact exec_ret_after_callTo (target := n) h hf
  · rw [exec_callCcN16, if_pos hcc] at h
    exact exec_ret_after_callTo h hf
  · exact exec_ret_after_callTo (target := BitVec.ofNat 16 (8 * slot.toNat)) h hf

/-- Settles O44: a jump sets `pc`, a conditional one to one of two addresses. -/
theorem jumps : Obligations.Jumps := by
  refine ⟨fun n => ⟨coded_of_encode rfl rfl rfl (by decide) rfl rfl, fun s => rfl⟩, fun cc n => ⟨?_, fun s => ?_⟩,
    ⟨coded_of_encode rfl rfl rfl (by decide) rfl rfl, fun s => rfl⟩,
    fun e => ⟨coded_of_encode rfl rfl rfl (by decide) rfl rfl, fun s => ?_⟩, fun cc e => ⟨?_, fun s => ?_⟩⟩
  · exact coded_of_encode rfl rfl (by cases cc <;> rfl) (by cases cc <;> decide) rfl rfl
  · refine ⟨s.cond_eq_condHolds cc, ?_⟩
    rw [← s.cond_eq_condHolds cc]
    exact ite_next_setPc s _ n (s.pc + 3)
  · rw [← s.relative_eq_ofInt]; rfl
  · exact coded_of_encode rfl rfl (by cases cc <;> rfl) (by cases cc <;> decide) rfl rfl
  · refine ⟨s.cond_eq_condHolds cc, ?_⟩
    rw [← s.cond_eq_condHolds cc, ← s.relative_eq_ofInt]
    exact ite_next_setPc s _ (s.relative e) (s.pc + 2)

/-- Settles O48: INC and DEC are `modifyR8` of `inc8` and `dec8`; both write the whole of `f`. -/
theorem incrementAndDecrement : Obligations.IncrementAndDecrement := by
  refine ⟨fun r => ⟨?_, ?_⟩, fun r s _ => ⟨?_, ?_⟩⟩
  · exact coded_of_encode rfl rfl (by cases r <;> rfl) (by cases r <;> decide) rfl rfl
  · exact coded_of_encode rfl rfl (by cases r <;> rfl) (by cases r <;> decide) rfl rfl
  · have h := modifiesOperand_of_modifyR8 (i := .incR8 r) (s := s) (r := r) (op := inc8) rfl
    simp only [inc8_eq, Flags.pack_eq_flagByte] at h
    exact h
  · have h := modifiesOperand_of_modifyR8 (i := .decR8 r) (s := s) (r := r) (op := dec8) rfl
    simp only [dec8_eq, Flags.pack_eq_flagByte] at h
    exact h

/-- Settles O55: BIT reads the operand and packs the flags of `bitTest`. -/
theorem bitTest : Obligations.BitTest := by
  refine ⟨fun b r => ?_, fun b r s _ => ?_⟩
  · exact coded_of_encode rfl rfl (by revert b; cases r <;> decide) (by revert b; cases r <;> decide) rfl rfl
  · refine usesOperand_of_exec (s := s) ?_
    simp only [← Flags.pack_eq_flagByte, ← not_getLsbD_eq_decide]
    rfl

/-- Settles O34, by the rule of NOP. -/
theorem nopChangesOnlyPc : Obligations.NopChangesOnlyPc :=
  ⟨coded_of_encode rfl rfl rfl (by decide) rfl rfl, fun _ => rfl⟩

end Sys2Proof.Proofs
end

section
/-! What the 8-bit loads and stores share (41_ext_load8.md): one bus access and then the end of the rule,
a register destination, and the high page, where no access raises. -/

namespace Sys2Proof.Machine

open Spec

/-! ### One bus access -/

section

variable {i : Instr} {s : State} {a : Word}

/-- An instruction that reads one byte and ends in `t` of it. -/
theorem readsByte_of_exec {t : Byte → State} (h : exec i s = readThen s a fun v => .next (t v)) :
    ReadsByte i s a t := by
  refine ⟨fun hread => ?_, fun hread => ?_⟩
  · obtain ⟨v, hv⟩ := s.busRead_of_readable hread
    exact ⟨v, hv, h.trans (readThen_of_read hv _)⟩
  · exact h.trans (readThen_of_unmapped ((s.busRead_eq_none a).mpr hread) _)

/-- An instruction that stores one byte; what follows sees the state with the byte stored. -/
theorem storesByte_of_exec {v : Byte} {k : State → Result} {t : State → State}
    (h : exec i s = writeThen s a v k)
    (hk : ∀ m, k (s.stored m a v) = .next (t (s.stored m a v))) : StoresByte i s a v t := by
  refine ⟨fun hw => ?_, fun hw => ?_⟩
  · obtain ⟨u, hu⟩ := s.busWrite_of_writable v hw
    have hexec : exec i s = k u := h.trans (writeThen_of_write hu k)
    obtain ⟨m, -, rfl⟩ := State.busWrite_eq_some hu
    exact ⟨_, hu, hexec.trans (hk m)⟩
  · exact h.trans (writeThen_of_fatal ((s.busWrite_eq_none a v).mpr hw) k)

/-- A plain store ends with `pc` past the instruction. -/
theorem storesByte_of_store {v : Byte} {k : Word} (h : exec i s = store a v k s) :
    StoresByte i s a v fun u => { u with pc := s.pc + k } :=
  storesByte_of_exec h fun _ => rfl

end

/-! ### A register destination -/

/-- A register takes the value and `pc` moves past the instruction; no register write raises
(30_encoding.md R63). -/
theorem writeR8Then_bumpPc {r : R8} (hr : r ≠ .mhl) (v : Byte) (s : State) (k : Word) :
    writeR8Then r v s (fun t => .next (t.bumpPc k)) = .next { putReg s r v with pc := s.pc + k } := by
  obtain ⟨-, -, hwrite, -⟩ := Proofs.operandCodes s
  have hpc : (putReg s r v).pc = s.pc := by cases r <;> rfl
  rw [hwrite, if_neg hr, State.bumpPc, hpc]

/-! ### The high page -/

/-- The address in the high page as an integer (30_encoding.md R68). -/
theorem highPage_eq_ofNat (v : Byte) : highPage v = BitVec.ofNat 16 (0xFF00 + v.toNat) := by
  rw [BitVec.ofNat_add, BitVec.ofNat_toNat]; rfl

theorem writable_highPage (v : Byte) : writable (highPage v) = true := by
  revert v; decide

/-- Above the cartridge the bus answers where it can be written (20_memory.md R35, R36). -/
theorem State.readable_of_writable (s : State) {a : Word} (h : writable a = true) :
    s.readable a = true := by
  have hrom : ¬ a.toNat ≤ 0x7FFF := fun hle => by
    rw [(writable_eq_false_iff a).mpr (.inl hle)] at h
    cases h
  rw [State.readable, if_neg hrom, h]

/-- A load of `a` from the high page never raises. -/
theorem readsHighPage_of_loadA {i : Instr} {s : State} {v : Byte} {k : Word}
    (h : exec i s = loadA (highPage v) k s) :
    ∃ x, s.busRead (BitVec.ofNat 16 (0xFF00 + v.toNat)) = some x ∧
      exec i s = .next { s with a := x, pc := s.pc + k } := by
  rw [← highPage_eq_ofNat]
  obtain ⟨hload, -⟩ := readsByte_of_exec h
  exact hload (s.readable_of_writable (writable_highPage v))

/-- A store to the high page never raises. -/
theorem storesHighPage_of_store {i : Instr} {s : State} {v x : Byte} {k : Word}
    (h : exec i s = store (highPage v) x k s) :
    ∃ u, s.busWrite (BitVec.ofNat 16 (0xFF00 + v.toNat)) x = some u ∧
      exec i s = .next { u with pc := s.pc + k } := by
  rw [← highPage_eq_ofNat]
  obtain ⟨hstore, -⟩ := storesByte_of_store h
  exact hstore (writable_highPage v)

end Sys2Proof.Machine
end

section
/-! The statements of 41_ext_load8.md, from the lemmas above. -/

namespace Sys2Proof.Proofs

open Machine Spec

/-- Settles O35: a register operand is read and a register destination is written without a raise. -/
theorem registerLoads : Obligations.RegisterLoads := by
  refine ⟨fun dst src hd hs => ⟨?_, fun s => ?_⟩, fun dst n hd => ⟨?_, fun s => ?_⟩⟩
  · have hwf : (Instr.ldRR dst src).wellFormed = true := by simp [Instr.wellFormed, hd, hs]
    exact coded_of_encode hwf rfl (by cases dst <;> cases src <;> rfl)
      (by revert hwf; cases dst <;> cases src <;> decide) rfl rfl
  · obtain ⟨huses, -⟩ := usesOperand_of_exec (i := .ldRR dst src) <|
      congrArg (readR8Then src s) (funext fun v => writeR8Then_bumpPc hd v s 1)
    exact huses (absurd · hs)
  · exact coded_of_encode (bne_iff_ne.mpr hd) rfl (by cases dst <;> rfl)
      (by revert hd; cases dst <;> decide) rfl rfl
  · exact writeR8Then_bumpPc hd n s 2

/-- Settles O36: each load is one read and then its end; LD r,(HL) writes its register after the read. -/
theorem loadsFromMemory : Obligations.LoadsFromMemory := by
  refine ⟨fun dst hd => ⟨?_, fun s => readsByte_of_exec ?_⟩,
    ⟨?_, fun s => readsByte_of_exec rfl⟩, ⟨?_, fun s => readsByte_of_exec rfl⟩,
    fun n => ⟨?_, fun s => readsByte_of_exec rfl⟩,
    ⟨?_, fun s => readsHighPage_of_loadA rfl⟩, fun n => ⟨?_, fun s => readsHighPage_of_loadA rfl⟩,
    ⟨?_, fun s => readsByte_of_exec rfl⟩, ⟨?_, fun s => readsByte_of_exec rfl⟩⟩
  · exact coded_of_encode (bne_iff_ne.mpr hd) rfl (by cases dst <;> rfl)
      (by revert hd; cases dst <;> decide) rfl rfl
  · exact congrArg (readThen s s.hl) (funext fun v => writeR8Then_bumpPc hd v s 1)
  all_goals exact coded_of_encode rfl rfl rfl (by decide) rfl rfl

/-- Settles O37: each store is one write and then its end; a register source never raises. -/
theorem storesToMemory : Obligations.StoresToMemory := by
  refine ⟨fun src hs => ⟨?_, fun s => ?_⟩, fun n => ⟨?_, fun s => storesByte_of_store rfl⟩,
    fun n => ⟨?_, fun s => storesByte_of_store rfl⟩, ⟨?_, fun s => storesByte_of_store rfl⟩,
    ⟨?_, fun s => storesByte_of_store rfl⟩, ⟨?_, fun s => storesHighPage_of_store rfl⟩,
    fun n => ⟨?_, fun s => storesHighPage_of_store rfl⟩,
    ⟨?_, fun s => storesByte_of_exec rfl fun _ => rfl⟩,
    ⟨?_, fun s => storesByte_of_exec rfl fun _ => rfl⟩⟩
  · exact coded_of_encode (bne_iff_ne.mpr hs) rfl (by cases src <;> rfl)
      (by revert hs; cases src <;> decide) rfl rfl
  · obtain ⟨v, hv⟩ := s.r8_of_readable (r := src) (absurd · hs)
    have hread : exec (.ldHlR src) s = store s.hl v 1 s :=
      readR8Then_of_read hv fun v => store s.hl v 1 s
    exact ⟨v, hv, storesByte_of_store hread⟩
  all_goals exact coded_of_encode rfl rfl rfl (by decide) rfl rfl

end Sys2Proof.Proofs
end

section
/-! What the 16-bit loads share (42_ext_load16.md): the end of two bus writes in a row, and the signed sum
as an integer. -/

namespace Sys2Proof.Machine

open Spec

/-- A bus write leaves `pc` as it is (20_memory.md R36). -/
theorem State.busWrite_pc {s t : State} {a : Word} {v : Byte} (h : s.busWrite a v = some t) :
    t.pc = s.pc := by
  obtain ⟨m, -, rfl⟩ := State.busWrite_eq_some h
  rfl

/-- A sign-extended displacement added to a word, as an integer (00_scope.md R8). -/
theorem add_sext16_eq_ofInt (w : Word) (e : Byte) : w + sext16 e = BitVec.ofInt 16 (w.toNat + e.toInt) := by
  rw [BitVec.ofInt_add, BitVec.ofInt_natCast, BitVec.ofNat_toNat, BitVec.setWidth_eq]
  rfl

/-- Everything LD (n16),SP can do: a raise at the low byte, a raise at the high byte with the low byte
stored, or both bytes stored (42_ext_load16.md R121). -/
theorem exec_ldN16Sp_cases (n : Word) (s : State) :
    (writable n = false → exec (.ldN16Sp n) s = .next (faulted s n)) ∧
    (writable n = true → ∃ u, s.busWrite n (lo8 s.sp) = some u ∧
      (writable (n + 1) = false → exec (.ldN16Sp n) s = .next (faulted u (n + 1))) ∧
      (writable (n + 1) = true → ∃ u', u.busWrite (n + 1) (hi8 s.sp) = some u' ∧
        exec (.ldN16Sp n) s = .next { u' with pc := s.pc + 3 })) := by
  refine ⟨fun hlo => writeThen_of_fatal ((s.busWrite_eq_none n _).mpr hlo) _, fun hlo => ?_⟩
  obtain ⟨u, hu⟩ := s.busWrite_of_writable (lo8 s.sp) hlo
  have hfirst : exec (.ldN16Sp n) s = writeThen u (n + 1) (hi8 s.sp) fun t => .next (t.bumpPc 3) :=
    writeThen_of_write hu _
  refine ⟨u, hu, fun hhi => ?_, fun hhi => ?_⟩
  · exact hfirst.trans (writeThen_of_fatal ((u.busWrite_eq_none _ _).mpr hhi) _)
  · obtain ⟨u', hu'⟩ := u.busWrite_of_writable (hi8 s.sp) hhi
    have hpc : u'.pc = s.pc := (State.busWrite_pc hu').trans (State.busWrite_pc hu)
    refine ⟨u', hu', hfirst.trans ((writeThen_of_write hu' _).trans ?_)⟩
    rw [State.bumpPc, hpc]

end Sys2Proof.Machine
end

section
/-! The statement of 42_ext_load16.md, from the lemmas above. -/

namespace Sys2Proof.Proofs

open Machine Spec

/-- Settles O38: only LD (n16),SP can raise; LD HL,SP+e8 packs the flags of `addSigned`. -/
theorem sixteenBitLoads : Obligations.SixteenBitLoads := by
  refine ⟨fun rr n => ?_, fun n s => ⟨rfl, rfl, rfl, rfl⟩, fun n => ⟨?_, exec_ldN16Sp_cases n⟩,
    fun e => ⟨?_, fun s => ?_⟩, ?_, fun s => rfl⟩
  · exact coded_of_encode rfl rfl (by cases rr <;> rfl) (by cases rr <;> decide) rfl rfl
  · exact coded_of_encode rfl rfl rfl (by decide) rfl rfl
  · exact coded_of_encode rfl rfl rfl (by decide) rfl rfl
  · rw [← add_sext16_eq_ofInt, ← Flags.pack_eq_flagByte]
    rfl
  · exact coded_of_encode rfl rfl rfl (by decide) rfl rfl

end Sys2Proof.Proofs
end

section
/-! What the 8-bit arithmetic and logic rules share (43_ext_alu8.md): the two forms of an accumulator
operation, results and flags as integers, and the decimal adjustment. -/

namespace Sys2Proof.Machine

open Spec

/-! ### Bytes as integers -/

theorem bit_le_one (b : Bool) : bit b ≤ 1 := by cases b <;> decide

theorem toNat_byteOf (n : Nat) : (byteOf n).toNat = n % 256 := BitVec.toNat_ofNat n 8

/-- The zero test of a narrowed integer (00_scope.md R8). -/
theorem byteOf_beq_zero (n : Nat) : (byteOf n == 0) = decide (n % 256 = 0) := by
  refine decide_eq_decide.mpr ?_
  rw [← BitVec.toNat_inj, toNat_byteOf]; rfl

theorem add_byteOf (a : Byte) (k : Nat) : a + byteOf k = byteOf (a.toNat + k) := by
  rw [byteOf, byteOf, BitVec.ofNat_add, BitVec.ofNat_toNat, BitVec.setWidth_eq]

/-- A difference of bytes narrowed from the integers, kept from going negative by adding 256. -/
theorem sub_byteOf (a : Byte) {k : Nat} (hk : k ≤ 256) : a - byteOf k = byteOf (256 + a.toNat - k) := by
  apply BitVec.eq_of_toNat_eq
  rw [BitVec.toNat_sub, toNat_byteOf, toNat_byteOf]
  omega

theorem ofInt_sub_eq_byteOf (a v : Byte) (carry : Bool) :
    BitVec.ofInt 8 ((a.toNat : Int) - v.toNat - bit carry) =
      byteOf (256 + a.toNat - v.toNat - bit carry) := by
  have hv := v.isLt
  have hc := bit_le_one carry
  apply BitVec.eq_of_toNat_eq
  rw [BitVec.toNat_ofInt, toNat_byteOf]
  omega

/-- Complementing every bit, as an integer (43_ext_alu8.md R137). -/
theorem xor_ff_eq_byteOf (a : Byte) : a ^^^ 0xFF = byteOf (255 - a.toNat) := by
  revert a; decide

/-! ### Results and flags -/

/-- ADD and ADC (43_ext_alu8.md R130, R131). -/
theorem add8_eq (a v : Byte) (carry : Bool) : add8 a v carry =
    (byteOf (a.toNat + v.toNat + bit carry),
      ⟨decide ((a.toNat + v.toNat + bit carry) % 256 = 0), false,
        decide (a.toNat % 16 + v.toNat % 16 + bit carry > 0x0F),
        decide (a.toNat + v.toNat + bit carry > 0xFF)⟩) := by
  rw [← byteOf_beq_zero]; rfl

/-- SBC (43_ext_alu8.md R133). -/
theorem sub8_eq (a v : Byte) (carry : Bool) : sub8 a v carry =
    (byteOf (256 + a.toNat - v.toNat - bit carry),
      ⟨decide ((256 + a.toNat - v.toNat - bit carry) % 256 = 0), true,
        decide (a.toNat % 16 < v.toNat % 16 + bit carry),
        decide (a.toNat < v.toNat + bit carry)⟩) := by
  rw [← byteOf_beq_zero, ← ofInt_sub_eq_byteOf]; rfl

/-- SUB and CP, whose zero test compares the operands (43_ext_alu8.md R132, 40_source_named.md R84). -/
theorem sub8_false_eq (a v : Byte) : sub8 a v false =
    (byteOf (256 + a.toNat - v.toNat),
      ⟨decide (a = v), true, decide (a.toNat % 16 < v.toNat % 16), decide (a.toNat < v.toNat)⟩) := by
  have hz : (256 + a.toNat - v.toNat) % 256 = 0 ↔ a = v := by
    have ha := a.isLt
    have hv := v.isLt
    rw [← BitVec.toNat_inj]; omega
  rw [← decide_eq_decide.mpr hz]
  exact sub8_eq a v false

/-! ### The accumulator operations -/

/-- The accumulator and all four flags written (43_ext_alu8.md, template). -/
def State.withAcc (s : State) (r : Byte × Flags) : State := (s.setReg .a r.1).setFlags r.2

theorem State.withAcc_eq (s : State) {r : Byte × Flags} {v : Byte} {z n h c : Bool}
    (hr : r = (v, ⟨z, n, h, c⟩)) : s.withAcc r = { s with a := v, f := flagByte z n h c } := by
  rw [hr, ← Flags.pack_eq_flagByte]; rfl

/-- An instruction that stores a result and four flags, by what they are. -/
theorem setAcc_eq (s : State) (k : Word) {r : Byte × Flags} {v : Byte} {z n h c : Bool}
    (hr : r = (v, ⟨z, n, h, c⟩)) :
    setAcc r k s = .next { s with a := v, f := flagByte z n h c, pc := s.pc + k } := by
  have hset : setAcc r k s = .next ((s.withAcc r).bumpPc k) := rfl
  rw [hset, s.withAcc_eq hr, State.bumpPc]

@[simp] theorem State.withAcc_bumpPc_flags (s : State) (r : Byte × Flags) (k : Word) :
    ((s.withAcc r).bumpPc k).flags = r.2 := State.setFlags_flags (s.setReg .a r.1) r.2

/-- An operation whose two forms end in `alu` of the state and the operand follows the rule that `alu`
is. That the two forms do is `exec` unfolded, and their encodings are read off the table
(43_ext_alu8.md, template). -/
theorem accumulatorRule_of_exec {op : R8 → Instr} {opN : Byte → Instr} {code codeN : Nat} {g : Group}
    {rule : State → Byte → State} (alu : State → Byte → State)
    (hrule : ∀ s v, alu s v = rule s v)
    (hr8 : ∀ r s, exec (op r) s = readR8Then r s fun v => .next ((alu s v).bumpPc 1) := by
      exact fun _ _ => rfl)
    (hn8 : ∀ n s, exec (opN n) s = .next ((alu s n).bumpPc 2) := by exact fun _ _ => rfl)
    (hpc : ∀ s v, (alu s v).pc = s.pc := by exact fun _ _ => rfl)
    (hcode : ∀ r, Coded (op r) [byteOf (code + r8Code r)] g (if r = .mhl then 8 else 4)
      (if r = .mhl then 8 else 4) := by
      exact fun r => coded_of_encode rfl rfl (by cases r <;> rfl) (by cases r <;> decide) rfl rfl)
    (hcodeN : ∀ n, Coded (opN n) [byteOf codeN, n] g 8 8 := by
      exact fun n => coded_of_encode rfl rfl rfl (by decide) rfl rfl) :
    AccumulatorRule op opN code codeN g rule := by
  have hbump : ∀ (s : State) (v : Byte) (k : Word),
      (alu s v).bumpPc k = { rule s v with pc := s.pc + k } := fun s v k => by
    rw [State.bumpPc, hpc, hrule]
  refine ⟨hcode, hcodeN, fun r s => usesOperand_of_exec ?_, fun n s => ?_⟩
  · simp only [← hbump]
    exact hr8 r s
  · rw [← hbump]
    exact hn8 n s

/-! ### The decimal adjustment -/

/-- DAA adjusts the low digit (43_ext_alu8.md R136). -/
def daaLow (a : Byte) (old : Flags) : Nat :=
  if old.h = true ∨ (old.n = false ∧ a.toNat % 16 > 0x09) then 0x06 else 0

/-- DAA adjusts the high digit, which is its carry (43_ext_alu8.md R136). -/
def daaCarry (a : Byte) (old : Flags) : Bool :=
  decide (old.c = true ∨ (old.n = false ∧ a.toNat > 0x99))

/-- The adjustment of both digits as an integer (43_ext_alu8.md R136). -/
def daaSum (a : Byte) (old : Flags) : Nat := daaLow a old + if daaCarry a old then 0x60 else 0

theorem daaSum_le (a : Byte) (old : Flags) : daaSum a old ≤ 0x66 := by
  unfold daaSum daaLow
  split <;> split <;> omega

/-- Both branches of DAA's adjustment in one formula (43_ext_alu8.md R136). -/
theorem daaAdjust_eq (a : Byte) (old : Flags) : daaAdjust a old = (daaSum a old, daaCarry a old) := by
  obtain ⟨z, n, h, c⟩ := old
  cases n
  · cases c
    · by_cases ha : a.toNat > 0x99 <;> simp [daaAdjust, daaSum, daaLow, daaCarry, ha]
    · simp [daaAdjust, daaSum, daaLow, daaCarry]
  · simp [daaAdjust, daaSum, daaLow, daaCarry]

/-- What DAA leaves in the accumulator, from the integers (43_ext_alu8.md R136). -/
def daaResult (a : Byte) (old : Flags) : Byte :=
  if old.n then byteOf (256 + a.toNat - daaSum a old) else byteOf (a.toNat + daaSum a old)

theorem daa8_eq (a : Byte) (old : Flags) : daa8 a old =
    (daaResult a old, ⟨decide (daaResult a old = 0), old.n, false, daaCarry a old⟩) := by
  have hr : (if old.n then a - byteOf (daaSum a old) else a + byteOf (daaSum a old)) =
      daaResult a old := by
    rw [sub_byteOf a ((daaSum_le a old).trans (by decide)), add_byteOf]; rfl
  rw [← hr, daa8, daaAdjust_eq]; rfl

/-- DAA after an instruction that set the accumulator and the flags adjusts what that one set. -/
theorem exec_daa_after_setAcc {r : Byte × Flags} {k : Word} {s t : State} (h : setAcc r k s = .next t) :
    ∃ u, exec .daa t = .next u ∧ u.a = daaResult r.1 r.2 ∧ fc u = daaCarry r.1 r.2 := by
  obtain rfl : (s.withAcc r).bumpPc k = t := Host.Outcome.next.inj h
  have hexec : exec .daa ((s.withAcc r).bumpPc k) =
      .next ((((s.withAcc r).bumpPc k).withAcc (daa8 r.1 r.2)).bumpPc 1) := by
    rw [← s.withAcc_bumpPc_flags r k]; rfl
  rw [daa8_eq] at hexec
  exact ⟨_, hexec, rfl, congrArg Flags.c (State.withAcc_bumpPc_flags _ _ 1)⟩

/-! ### Packed decimal numbers -/

theorem toNat_bcd {n : Nat} (h : n < 100) : (bcd n).toNat = 16 * (n / 10) + n % 10 := by
  rw [bcd, toNat_byteOf]; omega

/-- The tests of DAA by the digits they stand for. -/
theorem daa_of_iff {a : Byte} {old : Flags} {low high : Prop} [Decidable low] [Decidable high]
    (hlow : old.h = true ∨ (old.n = false ∧ a.toNat % 16 > 0x09) ↔ low)
    (hhigh : old.c = true ∨ (old.n = false ∧ a.toNat > 0x99) ↔ high) :
    daaSum a old = (if low then 0x06 else 0) + (if high then 0x60 else 0) ∧
      daaCarry a old = decide high := by
  have hcarry : daaCarry a old = decide high := decide_eq_decide.mpr hhigh
  refine ⟨?_, hcarry⟩
  rw [daaSum, hcarry, daaLow, if_congr hlow rfl rfl]
  simp only [decide_eq_true_eq]

section

variable {x y : Nat} (hx : x < 100) (hy : y < 100) (carry : Bool)

include hx hy

/-- A sum of packed decimals and its flags tell DAA which digits ran past 9 (43_ext_alu8.md R131, R136). -/
theorem daa_after_add8 {r : Byte × Flags} (hr : add8 (bcd x) (bcd y) carry = r) :
    daaResult r.1 r.2 = bcd ((x + y + bit carry) % 100) ∧
      daaCarry r.1 r.2 = decide (x + y + bit carry ≥ 100) := by
  have hc := bit_le_one carry
  rw [add8_eq, toNat_bcd hx, toNat_bcd hy] at hr
  generalize bit carry = c at hr hc ⊢
  obtain ⟨hsum, hcarry⟩ : daaSum r.1 r.2 =
      (if x % 10 + y % 10 + c > 9 then 0x06 else 0) + (if x + y + c ≥ 100 then 0x60 else 0) ∧
      daaCarry r.1 r.2 = decide (x + y + c ≥ 100) := by
    have htens : x + y + c < 100 → x / 10 + y / 10 ≤ 9 := by omega
    have hsum_le : x + y + c < 100 → 16 * (x / 10) + x % 10 + (16 * (y / 10) + y % 10) + c ≤ 0x99 := by
      omega
    subst hr
    apply daa_of_iff <;> simp only [toNat_byteOf, decide_eq_true_eq, true_and] <;> omega
  refine ⟨BitVec.eq_of_toNat_eq ?_, hcarry⟩
  rw [toNat_bcd (Nat.mod_lt _ (by decide)), daaResult, hsum, ← hr, if_neg Bool.false_ne_true,
    toNat_byteOf, toNat_byteOf]
  split <;> split <;> omega

/-- A difference of packed decimals and its flags tell DAA which digits borrowed
(43_ext_alu8.md R133, R136). -/
theorem daa_after_sub8 {r : Byte × Flags} (hr : sub8 (bcd x) (bcd y) carry = r) :
    daaResult r.1 r.2 = bcd ((100 + x - y - bit carry) % 100) ∧
      daaCarry r.1 r.2 = decide (x < y + bit carry) := by
  have hc := bit_le_one carry
  rw [sub8_eq, toNat_bcd hx, toNat_bcd hy] at hr
  generalize bit carry = c at hr hc ⊢
  obtain ⟨hsum, hcarry⟩ : daaSum r.1 r.2 =
      (if x % 10 < y % 10 + c then 0x06 else 0) + (if x < y + c then 0x60 else 0) ∧
      daaCarry r.1 r.2 = decide (x < y + c) := by
    subst hr
    apply daa_of_iff <;> simp only [Bool.true_eq_false, false_and, or_false, decide_eq_true_eq] <;> omega
  refine ⟨BitVec.eq_of_toNat_eq ?_, hcarry⟩
  rw [toNat_bcd (Nat.mod_lt _ (by decide)), daaResult, hsum, ← hr, if_pos rfl, toNat_byteOf, toNat_byteOf]
  split <;> split <;> omega

end

end Sys2Proof.Machine
end

section
/-! The statements of 43_ext_alu8.md, from the lemmas above. -/

namespace Sys2Proof.Proofs

open Machine Spec

/-- Settles O45: both are `add8`, ADD without a carry. -/
theorem additions : Obligations.Additions :=
  ⟨accumulatorRule_of_exec (fun s v => s.withAcc (add8 s.a v false))
      fun s v => s.withAcc_eq (add8_eq s.a v false),
    accumulatorRule_of_exec (fun s v => s.withAcc (add8 s.a v s.flags.c))
      fun s v => s.withAcc_eq (add8_eq s.a v (fc s))⟩

/-- Settles O46: all three are `sub8`, CP with its flags alone. -/
theorem subtractionsAndCompare : Obligations.SubtractionsAndCompare :=
  ⟨accumulatorRule_of_exec (fun s v => s.withAcc (sub8 s.a v false))
      fun s v => s.withAcc_eq (sub8_false_eq s.a v),
    accumulatorRule_of_exec (fun s v => s.withAcc (sub8 s.a v s.flags.c))
      fun s v => s.withAcc_eq (sub8_eq s.a v (fc s)),
    accumulatorRule_of_exec (fun s v => s.setFlags (sub8 s.a v false).2)
      fun s v => by rw [sub8_false_eq, State.setFlags, Flags.pack_eq_flagByte]⟩

/-- Settles O47: the results are bitwise, so only the flags need packing; `a ^^^ a` is 0. -/
theorem logic : Obligations.Logic := by
  refine ⟨accumulatorRule_of_exec (fun s v => s.withAcc (and8 s.a v)) fun s _ => s.withAcc_eq rfl,
    accumulatorRule_of_exec (fun s v => s.withAcc (xor8 s.a v)) fun s _ => s.withAcc_eq rfl,
    accumulatorRule_of_exec (fun s v => s.withAcc (or8 s.a v)) fun s _ => s.withAcc_eq rfl, fun s => ?_⟩
  have hxor : xor8 s.a s.a = (0x00, ⟨true, false, false, false⟩) := by simp [xor8]
  exact setAcc_eq s 1 hxor

/-- Settles O49: the adjustment is one formula for both values of N. -/
theorem decimalAdjust : Obligations.DecimalAdjust :=
  ⟨coded_of_encode rfl rfl rfl (by decide) rfl rfl, fun s _ =>
    setAcc_eq s 1 (daa8_eq s.a s.flags)⟩

/-- Settles O50: DAA sees the digits that ran past 9 or borrowed. -/
theorem decimalAdjustCorrects : Obligations.DecimalAdjustCorrects := by
  intro s t x y hx hy ha
  refine ⟨fun h => ?_, fun h => ?_⟩
  · have hset : setAcc (add8 (bcd x) (bcd y) (fc s)) 2 s = .next t := ha ▸ h
    obtain ⟨hres, hcarry⟩ := daa_after_add8 hx hy (fc s) rfl
    rw [← hres, ← hcarry]
    exact exec_daa_after_setAcc hset
  · have hset : setAcc (sub8 (bcd x) (bcd y) (fc s)) 2 s = .next t := ha ▸ h
    obtain ⟨hres, hcarry⟩ := daa_after_sub8 hx hy (fc s) rfl
    rw [← hres, ← hcarry]
    exact exec_daa_after_setAcc hset

/-- Settles O51: each is its flags packed; CPL complements the accumulator bit by bit. -/
theorem flagAdjustments : Obligations.FlagAdjustments := by
  refine ⟨coded_of_encode rfl rfl rfl (by decide) rfl rfl, coded_of_encode rfl rfl rfl (by decide) rfl rfl,
    coded_of_encode rfl rfl rfl (by decide) rfl rfl, fun s _ => ?_⟩
  simp only [← Flags.pack_eq_flagByte, ← xor_ff_eq_byteOf]
  exact ⟨rfl, rfl, rfl⟩

end Sys2Proof.Proofs
end

section
/-! What INC rr and DEC rr share (44_ext_alu16.md R140, R141): one addition to the pair. -/

namespace Sys2Proof.Machine

/-- DEC rr adds 0xFFFF modulo 2^16 (44_ext_alu16.md R141). -/
theorem exec_decRr_eq_add (rr : PairSp) (s : State) :
    exec (.decRr rr) s = .next ((s.setPairSp rr (s.pairSp rr + 0xFFFF)).bumpPc 1) := by
  have hsub : s.pairSp rr - 1 = s.pairSp rr + 0xFFFF := BitVec.sub_eq_add_neg _ _
  rw [← hsub]
  rfl

end Sys2Proof.Machine
end

section
/-! The statement of 44_ext_alu16.md, from the lemmas above. -/

namespace Sys2Proof.Proofs

open Machine Spec

/-- Settles O52: INC and DEC are one addition to the pair; the two ADDs pack the flags of `add16` and
`addSigned`. -/
theorem sixteenBitArithmetic : Obligations.SixteenBitArithmetic := by
  refine ⟨fun rr => ?_, fun rr s d i h => ?_, fun rr s _ => ?_, fun e => ⟨?_, fun s => ?_⟩⟩
  · refine ⟨?_, ?_, ?_⟩ <;>
      exact coded_of_encode rfl rfl (by cases rr <;> rfl) (by cases rr <;> decide) rfl rfl
  · have hadd : exec i s = .next ((s.setPairSp rr (s.pairSp rr + d)).bumpPc 1) := by
      obtain ⟨rfl, rfl⟩ | ⟨rfl, rfl⟩ := h
      · rfl
      · exact exec_decRr_eq_add rr s
    rw [hadd]
    cases rr <;> rfl
  · intro w
    rw [← Flags.pack_eq_flagByte, BitVec.add_def (x := s.hl) (y := w)]
    rfl
  · exact coded_of_encode rfl rfl rfl (by decide) rfl rfl
  · rw [← add_sext16_eq_ofInt, ← Flags.pack_eq_flagByte]
    rfl

end Sys2Proof.Proofs
end

section
/-! What the rules of 45_ext_rotate_shift_bit.md share: results as integers, single bits, and the write
back that comes after the flags. -/

namespace Sys2Proof.Machine

open Spec

/-! ### Rotates and shifts as integers -/

/-- A bit as an integer (00_scope.md R8). -/
theorem bit_getLsbD (v : Byte) (k : Nat) : bit (v.getLsbD k) = v.toNat / 2 ^ k % 2 := by
  rw [BitVec.getLsbD, ← Nat.toNat_testBit]
  cases v.toNat.testBit k <;> rfl

theorem bit_getLsbD_seven (v : Byte) : bit (v.getLsbD 7) = v.toNat / 128 := by
  rw [bit_getLsbD]
  exact Nat.mod_eq_of_lt (Nat.div_lt_of_lt_mul v.isLt)

/-- A left rotate moves the carry in at the bottom (45_ext_rotate_shift_bit.md R151, R156). -/
theorem rotLC_eq (v : Byte) (c : Bool) : rotLC v c = (byteOf (v.toNat * 2 + bit c), v.getLsbD 7) := by
  revert v c; decide

/-- A right rotate moves the carry in at the top (45_ext_rotate_shift_bit.md R153, R157). -/
theorem rotRC_eq (v : Byte) (c : Bool) :
    rotRC v c = (byteOf (v.toNat / 2 + bit c * 128), v.getLsbD 0) := by
  revert v c; decide

/-- The circular left rotate moves bit 7 in (45_ext_rotate_shift_bit.md R150, R154). -/
theorem rotL_eq (v : Byte) : rotL v = (byteOf (v.toNat * 2 + v.toNat / 128), v.getLsbD 7) := by
  rw [← bit_getLsbD_seven]
  exact rotLC_eq v (v.getLsbD 7)

/-- The circular right rotate moves bit 0 in (45_ext_rotate_shift_bit.md R152, R155). -/
theorem rotR_eq (v : Byte) : rotR v = (byteOf (v.toNat / 2 + v.toNat % 2 * 128), v.getLsbD 0) := by
  have hbit := bit_getLsbD v 0
  rw [pow_zero, Nat.div_one] at hbit
  rw [← hbit]
  exact rotRC_eq v (v.getLsbD 0)

/-- SLA moves a 0 in (45_ext_rotate_shift_bit.md R158). -/
theorem shiftLA_eq (v : Byte) : shiftLA v = (byteOf (v.toNat * 2), v.getLsbD 7) := by
  have hzero : shiftLA v = rotLC v false := by simp [shiftLA, rotLC, carryAt]
  exact hzero.trans (rotLC_eq v false)

/-- SRL moves a 0 in (45_ext_rotate_shift_bit.md R161). -/
theorem shiftRL_eq (v : Byte) : shiftRL v = (byteOf (v.toNat / 2), v.getLsbD 0) := by
  have hzero : shiftRL v = rotRC v false := by simp [shiftRL, rotRC, carryAt]
  exact hzero.trans (rotRC_eq v false)

/-- SRA moves a copy of the sign bit in (45_ext_rotate_shift_bit.md R159). -/
theorem shiftRA_eq (v : Byte) :
    shiftRA v = (byteOf (v.toNat / 2 + v.toNat / 128 * 128), v.getLsbD 0) := by
  have hsign : v &&& 0x80 = carryAt 7 (v.getLsbD 7) := BitVec.and_twoPow v 7
  rw [shiftRA, hsign, ← bit_getLsbD_seven]
  exact rotRC_eq v (v.getLsbD 7)

/-- SWAP, nibble by nibble (45_ext_rotate_shift_bit.md R160). -/
theorem swapNibbles_eq (v : Byte) :
    swapNibbles v = (byteOf (v.toNat % 16 * 16 + v.toNat / 16), false) := by
  revert v; decide

/-- The flags of a prefixed rotate or shift, packed (45_ext_rotate_shift_bit.md, template). -/
theorem shiftFlags_pack (n : Nat) (c : Bool) :
    (shiftFlags (byteOf n, c)).pack = flagByte (decide (n % 256 = 0)) false false c := by
  rw [shiftFlags, byteOf_beq_zero, Flags.pack_eq_flagByte]

/-! ### The write back after the flags -/

/-- A bus write and a flag write do not meet (20_memory.md R36). -/
theorem State.setFlags_busWrite (s : State) (fl : Flags) (a : Word) (v : Byte) :
    (s.setFlags fl).busWrite a v = (s.busWrite a v).map (·.setFlags fl) := by
  rw [State.busWrite, State.busWrite, State.setFlags_mem, State.setFlags_route]
  cases s.mem.put (s.route a) v <;> rfl

/-- A prefixed rotate or shift: the result and the packed flags of `op`, which a raising write back
leaves (45_ext_rotate_shift_bit.md, template; 60_exceptions.md R206). -/
theorem modifiesOperand_of_shiftR8 {i : Instr} {s : State} {r : R8} {op : Byte → Bool → Byte × Bool}
    (h : exec i s = shiftR8 op r s) :
    ModifiesOperand i s r (fun v => (op v (fc s)).1)
      (fun v => { s with f := (shiftFlags (op v (fc s))).pack })
      fun v u => { u with f := (shiftFlags (op v (fc s))).pack, pc := s.pc + 2 } := by
  have hread : ∀ {v}, s.r8 r = some v → exec i s = writeR8Then r (op v (fc s)).1
      (s.setFlags (shiftFlags (op v (fc s)))) fun u => .next (u.bumpPc 2) :=
    fun hv => h.trans (readR8Then_of_read hv _)
  refine ⟨fun hr => ?_, ?_, ?_⟩
  · obtain ⟨v, hv⟩ := s.r8_of_readable (r := r) (absurd · hr)
    refine ⟨v, hv, (hread hv).trans ?_⟩
    obtain ⟨-, -, hwrite, -⟩ := Proofs.operandCodes (s.setFlags (shiftFlags (op v (fc s))))
    rw [hwrite, if_neg hr]
    cases r <;> rfl
  · rintro rfl hmapped
    exact h.trans (readThen_of_unmapped ((s.busRead_eq_none _).mpr hmapped) _)
  · rintro rfl hmapped
    obtain ⟨v, hv⟩ := s.busRead_of_readable hmapped
    refine ⟨v, hv, fun hw => ?_, fun hw => (hread hv).trans ?_⟩
    · obtain ⟨u, hu⟩ := s.busWrite_of_writable (op v (fc s)).1 hw
      refine ⟨u, hu, (hread hv).trans ?_⟩
      have hset := State.setFlags_busWrite s (shiftFlags (op v (fc s))) s.hl (op v (fc s)).1
      rw [hu, Option.map_some] at hset
      rw [← State.busWrite_pc hu]
      exact writeThen_of_write hset _
    · exact writeThen_of_fatal ((State.busWrite_eq_none _ _ _).mpr hw) _

/-- A prefixed rotate or shift by `op` follows the rule with the integers that `op` computes. That it is
one is `exec` unfolded, and its encodings are read off the table (45_ext_rotate_shift_bit.md, template). -/
theorem shiftRule_of_exec {inst : R8 → Instr} {code : Nat} {res : Byte → Bool → Nat}
    {carry : Byte → Bool} {op : Byte → Bool → Byte × Bool}
    (hop : ∀ v c, op v c = (byteOf (res v c), carry v))
    (hexec : ∀ r s, exec (inst r) s = shiftR8 op r s := by exact fun _ _ => rfl)
    (hcode : ∀ r, Coded (inst r) [0xCB, byteOf (code + r8Code r)] .x (if r = .mhl then 16 else 8)
      (if r = .mhl then 16 else 8) := by
      exact fun r => coded_of_encode rfl rfl (by cases r <;> rfl) (by cases r <;> decide) rfl rfl) :
    ShiftRule inst code res carry := by
  refine ⟨hcode, fun r s => ?_⟩
  have h := modifiesOperand_of_shiftR8 (hexec r s)
  simp only [hop, shiftFlags_pack] at h
  exact h

/-- A one-byte accumulator rotate by `rot` follows the rule with the integers that `rot` computes; Z is 0
(45_ext_rotate_shift_bit.md R150 to R153). -/
theorem rotateRule_of_exec {i : Instr} {code : Nat} {res : Byte → Bool → Nat} {carry : Byte → Bool}
    {rot : Byte → Bool → Byte × Bool} (hrot : ∀ v c, rot v c = (byteOf (res v c), carry v))
    (hexec : ∀ s, exec i s = rotateA (rot s.a (fc s)) s := by exact fun _ => rfl)
    (hcode : Coded i [byteOf code] .x 4 4 := by
      exact coded_of_encode rfl rfl rfl (by decide) rfl rfl) :
    RotateRule i code res carry := by
  refine ⟨hcode, fun s => ?_⟩
  rw [hexec, hrot, ← Flags.pack_eq_flagByte]
  rfl

/-! ### One bit cleared or set -/

/-- RES and SET: the result of `op`, and no flag (45_ext_rotate_shift_bit.md R162, R163). -/
theorem modifiesOperand_of_updateR8 {i : Instr} {s : State} {r : R8} {op : Byte → Byte}
    (h : exec i s = updateR8 op r s) :
    ModifiesOperand i s r op (fun _ => s) fun _ u => { u with pc := s.pc + 2 } :=
  modifiesOperand_of_exec h fun _ u hpc => by rw [← hpc]; rfl

theorem byteOf_toNat (v : Byte) : byteOf v.toNat = v := by
  rw [byteOf, BitVec.ofNat_toNat, BitVec.setWidth_eq]

theorem toNat_or_of_disjoint {x y : Byte} (h : x &&& y = 0) : (x ||| y).toNat = x.toNat + y.toNat := by
  rw [← BitVec.add_eq_or_of_and_eq_zero x y h, BitVec.toNat_add_of_and_eq_zero h]

section

variable (b : BitVec 3) (v : Byte)

theorem resetBit_eq_and_not : resetBit b v = v &&& ~~~BitVec.twoPow 8 b.toNat := by
  rw [← BitVec.allOnes_xor]; rfl

theorem toNat_twoPow_bit : (BitVec.twoPow 8 b.toNat).toNat = 2 ^ b.toNat := by
  rw [BitVec.toNat_twoPow, Nat.mod_eq_of_lt (Nat.pow_lt_pow_right (by decide) b.isLt)]

/-- The byte is what RES leaves of it and the bit that RES clears. -/
theorem toNat_resetBit_add_bit :
    (resetBit b v).toNat + v.toNat / 2 ^ b.toNat % 2 * 2 ^ b.toNat = v.toNat := by
  have hdisjoint : resetBit b v &&& (v &&& BitVec.twoPow 8 b.toNat) = 0 := by
    rw [resetBit_eq_and_not]
    grind
  have hunion : resetBit b v ||| (v &&& BitVec.twoPow 8 b.toNat) = v := by
    rw [resetBit_eq_and_not]
    grind
  have hbit : (v &&& BitVec.twoPow 8 b.toNat).toNat = v.toNat / 2 ^ b.toNat % 2 * 2 ^ b.toNat := by
    rw [BitVec.toNat_and, toNat_twoPow_bit, Nat.and_two_pow, Nat.toNat_testBit]
  rw [← hbit, ← toNat_or_of_disjoint hdisjoint, hunion]

/-- SET adds the bit to what RES leaves. -/
theorem toNat_setBit : (setBit b v).toNat = (resetBit b v).toNat + 2 ^ b.toNat := by
  have hdisjoint : resetBit b v &&& BitVec.twoPow 8 b.toNat = 0 := by
    rw [resetBit_eq_and_not, BitVec.and_assoc]
    simp
  have hunion : resetBit b v ||| BitVec.twoPow 8 b.toNat = setBit b v := by
    rw [resetBit_eq_and_not, setBit]
    grind
  rw [← toNat_twoPow_bit, ← toNat_or_of_disjoint hdisjoint, hunion]

/-- RES as an integer: the bit is subtracted where it is 1 (45_ext_rotate_shift_bit.md R162). -/
theorem resetBit_eq :
    resetBit b v = byteOf (v.toNat - v.toNat / 2 ^ b.toNat % 2 * 2 ^ b.toNat) := by
  rw [← Nat.eq_sub_of_add_eq (toNat_resetBit_add_bit b v), byteOf_toNat]

/-- SET as an integer: the bit is added where it is 0 (45_ext_rotate_shift_bit.md R163). -/
theorem setBit_eq :
    setBit b v = byteOf (v.toNat + (1 - v.toNat / 2 ^ b.toNat % 2) * 2 ^ b.toNat) := by
  rw [← byteOf_toNat (setBit b v), toNat_setBit]
  have hreset := toNat_resetBit_add_bit b v
  congr 1
  obtain hclear | hset := Nat.mod_two_eq_zero_or_one (v.toNat / 2 ^ b.toNat)
  · rw [hclear] at hreset ⊢; omega
  · rw [hset] at hreset ⊢; omega

end

end Sys2Proof.Machine
end

section
/-! The statements of 45_ext_rotate_shift_bit.md, from the lemmas above. -/

namespace Sys2Proof.Proofs

open Machine Spec

/-- Settles O53: each moves one bit in, and Z is no test of the result. -/
theorem accumulatorRotates : Obligations.AccumulatorRotates :=
  ⟨rotateRule_of_exec fun v _ => rotL_eq v, rotateRule_of_exec rotLC_eq,
    rotateRule_of_exec fun v _ => rotR_eq v, rotateRule_of_exec rotRC_eq⟩

/-- Settles O54: all eight are `shiftR8`, whose flags come before the write back. -/
theorem prefixedRotatesAndShifts : Obligations.PrefixedRotatesAndShifts :=
  ⟨shiftRule_of_exec fun v _ => rotL_eq v, shiftRule_of_exec fun v _ => rotR_eq v,
    shiftRule_of_exec rotLC_eq, shiftRule_of_exec rotRC_eq,
    shiftRule_of_exec fun v _ => shiftLA_eq v, shiftRule_of_exec fun v _ => shiftRA_eq v,
    shiftRule_of_exec fun v _ => swapNibbles_eq v, shiftRule_of_exec fun v _ => shiftRL_eq v⟩

/-- Settles O56: RES and SET are one read and one write back, and no flag is written. -/
theorem bitClearAndSet : Obligations.BitClearAndSet := by
  refine ⟨fun b r => ⟨?_, ?_⟩, fun b r s => ⟨?_, ?_⟩⟩
  · exact coded_of_encode rfl rfl (by revert b; cases r <;> decide) (by revert b; cases r <;> decide) rfl rfl
  · exact coded_of_encode rfl rfl (by revert b; cases r <;> decide) (by revert b; cases r <;> decide) rfl rfl
  · simp only [← resetBit_eq]
    exact modifiesOperand_of_updateR8 rfl
  · simp only [← setBit_eq]
    exact modifiesOperand_of_updateR8 rfl

end Sys2Proof.Proofs
end

section
/-! The fetch (30_encoding.md R60, R68; 60_exceptions.md R202, R206, R207): the instruction it answers where
the bus holds one, the byte it raises on, and that it does nothing else. -/

namespace Sys2Proof.Machine

open Spec

variable {s : State} {i : Instr}

/-! ### The bytes of an instruction on the bus -/

/-- No operand byte follows the two bytes of a prefixed key (30_encoding.md R61). -/
theorem operandBytes_of_prefixed (h : i.key.prefixed = true) : i.operandBytes = [] := by
  cases i with
  | rlcR8 | rrcR8 | rlR8 | rrR8 | slaR8 | sraR8 | swapR8 | srlR8 | bitBR8 | resBR8 | setBR8 => rfl
  | _ => cases h

@[simp] theorem State.bytesAt_zero (s : State) (a : Word) : s.bytesAt a 0 = some [] := rfl

/-- The key of a well-formed instruction is one that a fetch can form (30_encoding.md R60). -/
theorem fetchable_of_wellFormed (hwf : i.wellFormed = true) :
    i.key.prefixed = true ∨ i.key.opcode ≠ Config.prefixByte :=
  let ⟨_, hrow, _⟩ := Instr.hasRow hwf
  fetchable_of_rowOf hrow

/-- The bytes of an instruction are those of its key and, from the second byte on, its operand bytes. -/
theorem holdsAt_iff {a : Word} (hwf : i.wellFormed = true) : HoldsAt s a i ↔
    KeyAt s a i.key ∧ s.bytesAt (a + 1) i.operandBytes.length = some i.operandBytes := by
  have hfetch := fetchable_of_wellFormed hwf
  have hops := operandBytes_of_prefixed (i := i)
  unfold HoldsAt KeyAt Instr.length encode
  generalize i.key = k at hfetch hops
  obtain ⟨_ | _, op⟩ := k
  · have hop : op ≠ 203#8 := hfetch.resolve_left Bool.false_ne_true
    simp [Key.bytes, State.bytesAt_cons, hop]
  · simp [Key.bytes, State.bytesAt_cons, hops rfl, Config.prefixByte]

/-! ### From the bytes to the instruction -/

/-- Decode of a recognized key goes on with a form that takes the operand bytes to the instruction. -/
theorem exists_form_of_recognized (hwf : i.wellFormed = true)
    (hrec : i.key.recognized s.launch.dispatchExt = true) :
    ∃ fm : Form, fm.Takes i.operandBytes i ∧
      ∀ k, dispatchThen i.key s k = operandsThen fm s k := by
  obtain ⟨row, hrow, ht⟩ := Instr.hasRow hwf
  have hgroup : ¬ (row.group = .x ∧ s.launch.dispatchExt = false) := by
    rintro ⟨hx, hext⟩
    simp [Key.recognized, hrow, hx, hext, Group.inTable] at hrec
  exact ⟨_, ht, fun k => by simp [dispatchThen, hrow, hgroup]⟩

/-- Where the bytes at `pc` are those of an instruction of the table, the fetch answers it
(60_exceptions.md R200). -/
theorem fetchThen_of_holdsAt (hwf : i.wellFormed = true)
    (hrec : i.key.recognized s.launch.dispatchExt = true) (h : HoldsAt s s.pc i) (k : Instr → Result) :
    fetchThen s k = k i := by
  obtain ⟨hkey, hops⟩ := (holdsAt_iff hwf).mp h
  obtain ⟨fm, ht, hform⟩ := exists_form_of_recognized hwf hrec
  rw [fetchThen_of_keyAt hkey, hform]
  exact operandsThen_of_complete (Form.complete_eq_ok.mpr ⟨_, ht, List.append_nil _⟩) hops k

/-- The end of a step on such an instruction is that of its execution (60_exceptions.md R200). -/
theorem executeThen_completesAs (hwf : i.wellFormed = true)
    (hrec : i.key.recognized s.launch.dispatchExt = true) (h : HoldsAt s s.pc i) (arm : Bool) (spent : Nat) :
    CompletesAs arm spent s i (executeThen arm spent s) := by
  intro t ht
  have hdi : (!isDi i) = decide (i ≠ .di) := by rw [isDi, decide_not]; rfl
  rw [executeThen, fetchThen_of_holdsAt hwf hrec h, ht, hdi]
  refine ⟨fun hf => afterExec_of_raise (Option.isSome_iff_ne_none.mpr hf), fun hf => ?_⟩
  rw [afterExec_of_done hf]
  cases arm && decide (i ≠ .di) <;> rfl

/-! ### The raises of a fetch -/

/-- The first byte that the bus does not answer is the one a fetch raises on (60_exceptions.md R207). -/
theorem fetchThen_raises (s : State) (k : Instr → Result) : FetchRaises s (fetchThen s k) := by
  refine ⟨fun h₀ => ?_, fun h₀ h₁ => ?_, fun i hwf hrec hp h₀ => ?_⟩
  · exact readThen_of_unmapped ((s.busRead_eq_none _).mpr h₀) _
  · exact (readThen_of_read h₀ _).trans (readThen_of_unmapped ((s.busRead_eq_none _).mpr h₁) _)
  · have hop : i.key.opcode ≠ Config.prefixByte := by simpa [hp] using fetchable_of_wellFormed hwf
    have hkey : KeyAt s s.pc i.key := by rw [KeyAt, hp]; exact ⟨h₀, hop⟩
    have hlen : i.length = 1 + i.operandBytes.length := by
      simp [Instr.length, encode, Key.bytes, hp, Nat.add_comm]
    obtain ⟨fm, ht, hform⟩ := exists_form_of_recognized hwf hrec
    rw [fetchThen_of_keyAt hkey, hform, hlen]
    cases fm with
    | op j =>
      obtain ⟨hops, -⟩ := ht
      simp [hops]
    | opN8 mk =>
      obtain ⟨n, hops, -⟩ := ht
      refine ⟨fun _ h₁ => readThen_of_unmapped ((s.busRead_eq_none _).mpr h₁) _, by simp [hops]⟩
    | opN16 mk =>
      refine ⟨fun _ h₁ => readThen_of_unmapped ((s.busRead_eq_none _).mpr h₁) _, fun _ h₁ h₂ => ?_⟩
      obtain ⟨lo, hlo⟩ := s.busRead_of_readable h₁
      rw [operandsThen, readThen_of_read hlo]
      exact readThen_of_unmapped ((s.busRead_eq_none _).mpr h₂) _

/-! ### Everything a fetch can do -/

/-- The operand bytes are read, or a raise ends the fetch. -/
theorem operandsThen_cases (fm : Form) (s : State) (k : Instr → Result) :
    (∃ e, operandsThen fm s k = .next (s.raise e)) ∨ ∃ i ops, fm.Takes ops i ∧
      s.bytesAt (s.pc + 1) ops.length = some ops ∧ operandsThen fm s k = k i := by
  cases fm with
  | op j => exact .inr ⟨j, [], ⟨rfl, rfl⟩, rfl, rfl⟩
  | opN8 mk =>
    cases h₁ : s.busRead (s.pc + 1) with
    | none => exact .inl ⟨_, readThen_of_unmapped h₁ _⟩
    | some n =>
      exact .inr ⟨mk n, [n], ⟨n, rfl, rfl⟩, State.bytesAt_cons.mpr ⟨h₁, rfl⟩, readThen_of_read h₁ _⟩
  | opN16 mk =>
    cases h₁ : s.busRead (s.pc + 1) with
    | none => exact .inl ⟨_, readThen_of_unmapped h₁ _⟩
    | some lo =>
      have hlo := readThen_of_read h₁ fun lo => readThen s (s.pc + 2) fun hi => k (mk (cat hi lo))
      cases h₂ : s.busRead (s.pc + 2) with
      | none => exact .inl ⟨_, hlo.trans (readThen_of_unmapped h₂ _)⟩
      | some hi =>
        have hpc : s.pc + 1 + 1 = s.pc + 2 := by rw [BitVec.add_assoc]; rfl
        refine .inr ⟨mk (cat hi lo), [lo, hi], ⟨cat hi lo, by simp, rfl⟩, ?_,
          hlo.trans (readThen_of_read h₂ _)⟩
        exact State.bytesAt_cons.mpr ⟨h₁, State.bytesAt_cons.mpr ⟨hpc ▸ h₂, rfl⟩⟩

/-- Decode of a key that stands at `pc` raises, or it goes on with the well-formed instruction whose bytes
stand there. -/
theorem dispatchThen_cases {key : Key} (hkey : KeyAt s s.pc key) (k : Instr → Result) :
    (∃ e, dispatchThen key s k = .next (s.raise e)) ∨
      ∃ i, i.wellFormed = true ∧ HoldsAt s s.pc i ∧ dispatchThen key s k = k i := by
  unfold dispatchThen
  split
  · exact .inl ⟨_, rfl⟩
  · next row hrow =>
    split
    · exact .inl ⟨_, rfl⟩
    · obtain hraise | ⟨i, ops, ht, hbytes, hk⟩ := operandsThen_cases (row.form key.opcode) s k
      · exact .inl hraise
      · obtain ⟨hwf, rfl, rfl⟩ := encoding_of_takes hrow ht
        exact .inr ⟨i, hwf, (holdsAt_iff hwf).mpr ⟨hkey, hbytes⟩, hk⟩

/-- A fetch raises, or it answers the well-formed instruction whose bytes stand at `pc`
(60_exceptions.md R200, R202). -/
theorem fetchThen_cases (s : State) (k : Instr → Result) :
    (∃ e, fetchThen s k = .next (s.raise e)) ∨
      ∃ i, i.wellFormed = true ∧ HoldsAt s s.pc i ∧ fetchThen s k = k i := by
  cases h₀ : s.busRead s.pc with
  | none => exact .inl ⟨_, readThen_of_unmapped h₀ _⟩
  | some b₀ =>
    by_cases hb : b₀ = 0xCB
    · subst hb
      cases h₁ : s.busRead (s.pc + 1) with
      | none => exact .inl ⟨_, (readThen_of_read h₀ _).trans (readThen_of_unmapped h₁ _)⟩
      | some b₁ =>
        have hkey : KeyAt s s.pc ⟨true, b₁⟩ := ⟨h₀, h₁⟩
        exact fetchThen_of_keyAt hkey k ▸ dispatchThen_cases hkey k
    · have hkey : KeyAt s s.pc ⟨false, b₀⟩ := ⟨h₀, hb⟩
      exact fetchThen_of_keyAt hkey k ▸ dispatchThen_cases hkey k

end Sys2Proof.Machine
end

section
/-! A raise in the execute phase (60_exceptions.md R203, R204, R206): an instruction always answers a next
state, and one that raises stands as it did when it began but for registers, `sp` and the bus. -/

namespace Sys2Proof.Machine

open Spec

/-- What can make `i` raise `k`: an address the bus does not answer, or the unassigned byte of an ILLEGAL
row (60_exceptions.md R203). -/
def FaultKind.CausedBy (k : FaultKind) (i : Instr) (s : State) : Prop :=
  (∃ a, k = .unmappedAddress a ∧ (s.readable a = false ∨ writable a = false)) ∨
    ∃ op, (i, op) ∈ illegalRows ∧ k = .unknownOpcode ⟨false, op⟩

/-- The result is a next state whose latch is that of `s`, or the raise of a fault with a cause in a state
that has the `pc` and the enables of `s`. -/
def EndsOrRaises (i : Instr) (s : State) (r : Result) : Prop :=
  ∃ t, r = .next t ∧ (t.fault = s.fault ∨ ∃ (u : State) (k : FaultKind), t = u.raise k ∧ k.CausedBy i s ∧
    u.pc = s.pc ∧ u.ime = s.ime ∧ u.imePending = s.imePending)

namespace EndsOrRaises

variable {i : Instr} {s t : State}

theorem next (h : t.fault = s.fault) : EndsOrRaises i s (.next t) := ⟨t, rfl, .inl h⟩

theorem raise {k : FaultKind} (h : k.CausedBy i s) : EndsOrRaises i s (.next (s.raise k)) :=
  ⟨_, rfl, .inr ⟨s, k, rfl, h, rfl, rfl, rfl⟩⟩

theorem unknownOpcode {op : Byte} (h : (i, op) ∈ illegalRows) :
    EndsOrRaises i s (unknownOpcode ⟨false, op⟩ s) :=
  raise (.inr ⟨op, h, rfl⟩)

theorem readThen (a : Word) {k : Byte → Result} (hk : ∀ v, EndsOrRaises i s (k v)) :
    EndsOrRaises i s (readThen s a k) := by
  cases h : s.busRead a with
  | none =>
    rw [readThen_of_unmapped h]
    exact raise (.inl ⟨a, rfl, .inl ((s.busRead_eq_none a).mp h)⟩)
  | some v => rw [readThen_of_read h]; exact hk v

/-- What follows a write is seen from the state after it, which differs from `s` in no field that
`EndsOrRaises` names. -/
theorem writeThen (a : Word) (v : Byte) {k : State → Result}
    (hk : ∀ m, EndsOrRaises i (s.stored m a v) (k (s.stored m a v))) :
    EndsOrRaises i s (writeThen s a v k) := by
  cases h : s.busWrite a v with
  | none =>
    rw [writeThen_of_fatal h]
    exact raise (.inl ⟨a, rfl, .inr ((s.busWrite_eq_none a v).mp h)⟩)
  | some u =>
    rw [writeThen_of_write h]
    obtain ⟨m, -, rfl⟩ := State.busWrite_eq_some h
    exact hk m

theorem readR8Then (r : R8) {k : Byte → Result} (hk : ∀ v, EndsOrRaises i s (k v)) :
    EndsOrRaises i s (readR8Then r s k) := by
  cases r
  case mhl => exact readThen _ hk
  all_goals exact hk _

theorem writeR8Then (r : R8) (v : Byte) {k : State → Result} (hk : ∀ t, EndsOrRaises i t (k t)) :
    EndsOrRaises i s (writeR8Then r v s k) := by
  cases r
  case mhl => exact writeThen _ _ fun _ => hk _
  all_goals exact hk (s.setReg _ v)

theorem push16Then (w : Word) {k : State → Result} (hk : ∀ t, EndsOrRaises i t (k t)) :
    EndsOrRaises i s (push16Then w s k) :=
  writeThen (s := s.setSp _) _ _ fun _ => writeThen (s := State.setSp _ _) _ _ fun _ => hk _

theorem pop16Then {k : Word → State → Result} (hk : ∀ w t, EndsOrRaises i t (k w t)) :
    EndsOrRaises i s (pop16Then s k) :=
  readThen _ fun _ => readThen (s := s.setSp _) _ fun _ => hk _ (State.setSp _ _)

theorem store (a : Word) (v : Byte) (k : Word) : EndsOrRaises i s (store a v k s) :=
  writeThen _ _ fun _ => next rfl

theorem modifyR8 (op : Byte → Flags → Byte × Flags) (r : R8) : EndsOrRaises i s (modifyR8 op r s) :=
  readR8Then _ fun _ => writeR8Then _ _ fun _ => next rfl

theorem shiftR8 (op : Byte → Bool → Byte × Bool) (r : R8) : EndsOrRaises i s (shiftR8 op r s) :=
  readR8Then _ fun _ => writeR8Then (s := s.setFlags _) _ _ fun _ => next rfl

theorem updateR8 (op : Byte → Byte) (r : R8) : EndsOrRaises i s (updateR8 op r s) :=
  readR8Then _ fun _ => writeR8Then _ _ fun _ => next rfl

theorem callTo (target retAddr : Word) : EndsOrRaises i s (callTo target retAddr s) :=
  push16Then _ fun _ => next rfl

theorem returnTo : EndsOrRaises i s (returnTo s) := pop16Then fun _ _ => next rfl

theorem returnEnabled : EndsOrRaises i s (returnEnabled s) := pop16Then fun _ _ => next rfl

theorem of_ite {c : Prop} [Decidable c] {r r' : Result} (h : EndsOrRaises i s r)
    (h' : EndsOrRaises i s r') : EndsOrRaises i s (if c then r else r') := by
  split
  · exact h
  · exact h'

/-- Every instruction ends or raises so (60_exceptions.md R206). -/
theorem of_exec (i : Instr) (s : State) : EndsOrRaises i s (exec i s) := by
  unfold exec
  cases i with
  | nop | ei | di | scf | ccf | cpl | daa | addHlRr | addSpE8 | ldHlSpE8 | ldSpHl | rlca | rrca | rla
  | rra | addAN8 | adcAN8 | subAN8 | sbcAN8 | andAN8 | xorAN8 | orAN8 | cpAN8 | jpN16 | jpHl | jrE8 =>
    exact next rfl
  | ldRrN16 rr | incRr rr | decRr rr => exact next (State.setPairSp_fault s rr _)
  | addAR8 | adcAR8 | subAR8 | sbcAR8 | andAR8 | xorAR8 | orAR8 | cpAR8 | bitBR8 =>
    exact readR8Then _ fun _ => next rfl
  | ldABc | ldADe | ldAN16 | ldhAC | ldhAN8 | ldAHli | ldAHld => exact readThen _ fun _ => next rfl
  | jpCcN16 | jrCcE8 => exact of_ite (next rfl) (next rfl)
  | popRr rr => exact pop16Then fun _ t => next (State.setPairAf_fault t rr _)
  | ret => exact returnTo
  | retCc => exact of_ite returnTo (next rfl)
  | reti => exact returnEnabled
  | ldRR => exact readR8Then _ fun _ => writeR8Then _ _ fun _ => next rfl
  | ldRN8 => exact writeR8Then _ _ fun _ => next rfl
  | ldRHl => exact readThen _ fun _ => writeR8Then _ _ fun _ => next rfl
  | incR8 | decR8 => exact modifyR8 _ _
  | rlcR8 | rrcR8 | rlR8 | rrR8 | slaR8 | sraR8 | swapR8 | srlR8 => exact shiftR8 _ _
  | resBR8 | setBR8 => exact updateR8 _ _
  | ldHlR => exact readR8Then _ fun _ => store _ _ _
  | ldHlN8 | ldN16A | ldBcA | ldDeA | ldhCA | ldhN8A => exact store _ _ _
  | ldHliA | ldHldA => exact writeThen _ _ fun _ => next rfl
  | ldN16Sp => exact writeThen _ _ fun _ => writeThen _ _ fun _ => next rfl
  | pushRr => exact push16Then _ fun _ => next rfl
  | callN16 | rstT => exact callTo _ _
  | callCcN16 => exact of_ite (callTo _ _) (next rfl)
  | illegal10 | illegal76 | illegalD3 | illegalDB | illegalDD | illegalE3 | illegalE4 | illegalEB
  | illegalEC | illegalED | illegalF4 | illegalFC | illegalFD => exact unknownOpcode (by decide)

end EndsOrRaises

end Sys2Proof.Machine
end

section
/-! The interrupt controller (60_exceptions.md R210 to R214): which interrupt is pending, and everything that
taking it does. -/

namespace Sys2Proof.Machine

open Spec

variable {s t : State}

/-! ### The pending interrupt -/

/-- The least set bit is the first of 0 to 4 that is set. -/
theorem lowestBit_eq_find : ∀ m : Byte, lowestBit m = (List.range 5).find? fun j => m.getLsbD j := by
  decide

theorem lowestBit_eq_some {m : Byte} {bit : Nat} : lowestBit m = some bit ↔
    (bit < 5 ∧ m.getLsbD bit = true) ∧ ∀ j, j < bit → ¬ (j < 5 ∧ m.getLsbD j = true) := by
  rw [lowestBit_eq_find, List.find?_range_eq_some, List.mem_range]
  constructor
  · rintro ⟨hbit, hlt, hmin⟩
    exact ⟨⟨hlt, hbit⟩, fun j hj hset => by simpa [hset.2] using hmin j hj⟩
  · rintro ⟨⟨hlt, hbit⟩, hmin⟩
    exact ⟨hbit, hlt, fun j hj => by simpa [hj.trans hlt] using hmin j hj⟩

theorem lowestBit_eq_none {m : Byte} : lowestBit m = none ↔ ∀ j, ¬ (j < 5 ∧ m.getLsbD j = true) := by
  rw [lowestBit_eq_find, List.find?_range_eq_none]
  simp

/-- The mask 0x1F leaves the bits 0 to 4 of IE and IF (60_exceptions.md R210). -/
theorem getLsbD_masked (ie fl : Byte) {j : Nat} (hj : j < 5) :
    (ie &&& fl &&& 0x1F).getLsbD j = (ie.getLsbD j && fl.getLsbD j) := by
  have hmask : (0x1F : Byte).getLsbD j = true := by
    revert j; decide
  simp only [BitVec.getLsbD_and, hmask, Bool.and_true]

/-- An interrupt is pending where `ime` is set and a bit is enabled and requested, with the vector of the
least such bit (60_exceptions.md R210, R211). -/
theorem State.pending_eq (s : State) : s.pending = if s.ime then
    (lowestBit (s.ieByte &&& s.ifByte &&& 0x1F)).map fun bit => (bit, vectorOf bit) else none := by
  rw [State.pending]
  cases lowestBit _ <;> rfl

/-! ### Taking an interrupt -/

/-- The bus write of the acknowledge clears the bit (60_exceptions.md R214). -/
theorem not_twoPow_eq (bit : Nat) : ~~~(BitVec.twoPow 8 bit) = 0xFF ^^^ byteOf (2 ^ bit) := by
  have hbit : BitVec.twoPow 8 bit = byteOf (2 ^ bit) := by
    apply BitVec.eq_of_toNat_eq
    rw [BitVec.toNat_twoPow, byteOf, BitVec.toNat_ofNat]
  rw [hbit, BitVec.xor_comm]
  exact BitVec.xor_allOnes.symm

/-- The acknowledge stores to IF where `ACK_CLEARS_IF`, which never raises, and what follows runs
(60_exceptions.md R214). -/
theorem exists_ackThen (bit : Nat) (u : State) :
    ∃ w, (if u.launch.ackClearsIf then
        ∃ fl, u.busRead 0xFF0F = some fl ∧
          u.busWrite 0xFF0F (fl &&& (0xFF ^^^ byteOf (2 ^ bit))) = some w
      else w = u) ∧ ∀ k, ackThen bit u k = k w := by
  cases hack : u.launch.ackClearsIf with
  | false => exact ⟨u, rfl, fun k => by simp [ackThen, hack]⟩
  | true =>
    have hw : writable 0xFF0F = true := by decide
    obtain ⟨w, hw⟩ := u.busWrite_of_writable (u.ifByte &&& (0xFF ^^^ byteOf (2 ^ bit))) hw
    refine ⟨w, ⟨u.ifByte, u.busRead_if, hw⟩, fun k => ?_⟩
    rw [ackThen, if_pos hack, not_twoPow_eq]
    exact writeThen_of_write hw k

/-- The acknowledge makes one write or none. -/
theorem ack_fields {u w : State} {clears : Bool} {v : Byte → Byte}
    (hack : if clears then ∃ fl, u.busRead 0xFF0F = some fl ∧ u.busWrite 0xFF0F (v fl) = some w else w = u) :
    w.out.writes.length = u.out.writes.length + (if clears then 1 else 0) ∧
      w = { u with mem := w.mem, out := w.out } := by
  cases clears with
  | false =>
    obtain rfl : w = u := hack
    exact ⟨rfl, rfl⟩
  | true =>
    obtain ⟨fl, -, hw⟩ := hack
    obtain ⟨m, -, rfl⟩ := State.busWrite_eq_some hw
    exact ⟨by simp [State.stored], rfl⟩

theorem State.busWrite_launch {a : Word} {v : Byte} (h : s.busWrite a v = some t) : t.launch = s.launch := by
  obtain ⟨m, -, rfl⟩ := State.busWrite_eq_some h
  rfl

/-- What holds after a push may use that the launch is the old one (10_state.md R25). -/
theorem afterPush_imp {w : Word} {r : Result} {done done' : State → Prop} (h : AfterPush s w r done)
    (himp : ∀ u, u.launch = s.launch → done u → done' u) : AfterPush s w r done' := by
  obtain ⟨hfirst, hrest⟩ := h
  refine ⟨hfirst, fun h₁ => ?_⟩
  obtain ⟨u, hu, hsecond, hdone⟩ := hrest h₁
  refine ⟨u, hu, hsecond, fun h₂ => ?_⟩
  obtain ⟨u', hu', hdone⟩ := hdone h₂
  have hlaunch : u.launch = s.launch := State.busWrite_launch (s := s.setSp (s.sp - 1)) hu
  have hlaunch' : u'.launch = u.launch := State.busWrite_launch (s := u.setSp (s.sp - 2)) hu'
  exact ⟨u', hu', himp u' (hlaunch'.trans hlaunch) hdone⟩

/-- Everything taking an interrupt can do (60_exceptions.md R214). -/
theorem serviceThen_afterPush (s : State) (bit : Nat) (vector : Word) (k : State → Result) :
    AfterPush s s.pc (serviceThen bit vector s k) fun u =>
      ∃ w, (if s.launch.ackClearsIf then
          ∃ fl, u.busRead 0xFF0F = some fl ∧
            u.busWrite 0xFF0F (fl &&& (0xFF ^^^ byteOf (2 ^ bit))) = some w
        else w = u) ∧
        serviceThen bit vector s k = k { w with pc := vector, ime := false, imePending := false } := by
  refine afterPush_imp (afterPush_push16Then s _ fun _ _ h => h) fun u hlaunch h => ?_
  obtain ⟨w, hack, hk⟩ := exists_ackThen bit u
  exact ⟨w, hlaunch ▸ hack, h.trans (hk _)⟩

/-- A write raises, or what follows starts from the state after it, whatever follows. -/
theorem writeThen_cases (s : State) (a : Word) (v : Byte) :
    (∀ k, writeThen s a v k = .next (s.raise (.unmappedAddress a))) ∨
      ∃ m, ∀ k, writeThen s a v k = k (s.stored m a v) := by
  cases h : s.busWrite a v with
  | none => exact .inl (writeThen_of_fatal h)
  | some t =>
    obtain ⟨m, -, rfl⟩ := State.busWrite_eq_some h
    exact .inr ⟨m, writeThen_of_write h⟩

/-- A push raises, or what follows starts after its two writes, whatever follows (40_source_named.md
R86). -/
theorem push16Then_cases (w : Word) (s : State) :
    (∃ (u : State) (e : FaultKind), ∀ k, push16Then w s k = .next (u.raise e)) ∨
    ∃ u, (∀ k, push16Then w s k = k u) ∧ u.out.writes.length = s.out.writes.length + 2 ∧
      u = { s with sp := s.sp - 2, mem := u.mem, out := u.out } := by
  obtain h₁ | ⟨m, h₁⟩ := writeThen_cases (s.setSp (s.sp - 1)) (s.sp - 1) (hi8 w)
  · exact .inl ⟨_, _, fun k => h₁ _⟩
  generalize hu : (s.setSp (s.sp - 1)).stored m (s.sp - 1) (hi8 w) = u at h₁
  obtain h₂ | ⟨m', h₂⟩ := writeThen_cases (u.setSp (u.sp - 1)) (u.sp - 1) (lo8 w)
  · exact .inl ⟨_, _, fun k => (h₁ _).trans (h₂ _)⟩
  refine .inr ⟨_, fun k => (h₁ _).trans (h₂ _), ?_, ?_⟩
  · simp [← hu, State.stored]
  · rw [← hu, ← sub_one_sub_one]; rfl

/-- Taking an interrupt raises, or what follows starts at the vector: `sp` has moved by 2, the enables are
cleared, the two bytes of the push and where `ACK_CLEARS_IF` the acknowledge are written, and nothing else
differs (60_exceptions.md R214). -/
theorem serviceThen_cases (s : State) (bit : Nat) (vector : Word) :
    (∃ (u : State) (e : FaultKind), ∀ k, serviceThen bit vector s k = .next (u.raise e)) ∨
    ∃ u, (∀ k, serviceThen bit vector s k = k u) ∧
      u.out.writes.length = s.out.writes.length + (if s.launch.ackClearsIf then 3 else 2) ∧
      u = { s with sp := s.sp - 2, pc := vector, ime := false, imePending := false,
                   mem := u.mem, out := u.out } := by
  obtain ⟨u, e, h⟩ | ⟨u, h, hlen, hu⟩ := push16Then_cases s.pc s
  · exact .inl ⟨u, e, fun k => h _⟩
  obtain ⟨w, hack, hk⟩ := exists_ackThen bit u
  have hlaunch : u.launch = s.launch := by rw [hu]
  obtain ⟨hlen', hw⟩ := ack_fields hack
  refine .inr ⟨_, fun k => (h _).trans (hk _), ?_, ?_⟩
  · change w.out.writes.length = _
    rw [hlen', hlen, hlaunch]
    cases s.launch.ackClearsIf <;> rfl
  · rw [hw, hu]; rfl

/-- Taking an interrupt writes what `Writes.service` allows. -/
theorem serviceThen_writesOnly (s : State) (bit : Nat) (vector : Word) :
    Ensures (WritesOnly .service s) (serviceThen bit vector s .next) :=
  WritesOnly.serviceThen_ensures bit vector (fun _ => id) fun t ht => (ensures_next _ t).mpr ht

end Sys2Proof.Machine
end

section
/-! The end of a step (60_exceptions.md R200, R201): what a completed step and a step that raises have
done, and what an instruction does to the two enables. -/

namespace Sys2Proof.Machine

open Spec

variable {s t : State}

/-! ### The end of a completed step -/

/-- `advance` writes the video state and the record of its events only (60_exceptions.md R228). -/
theorem State.advance_eq (s : State) (n : Nat) :
    ∃ ppu lines, s.advance n = { s with ppu := ppu, out := { s.out with rendered := lines } } := by
  unfold State.advance
  split
  · exact ⟨_, _, rfl⟩
  · exact ⟨s.ppu, s.out.rendered, rfl⟩

/-- The fields the end of a step writes, and with what (60_exceptions.md R200 part 5). -/
theorem finished_fields (arm : Bool) (n : Nat) (s : State) :
    ∃ ppu lines, finished arm n s = { s with
      ime := arm || s.ime, imePending := !arm && s.imePending, opCount := s.opCount + 1, ppu := ppu,
      out := { s.out with cycles := some n, rendered := lines } } :=
  State.advance_eq _ n

section

variable (arm : Bool) (n : Nat) (s : State)

@[simp] theorem finished_ime : (finished arm n s).ime = (arm || s.ime) := by
  obtain ⟨_, _, h⟩ := finished_fields arm n s
  rw [h]

@[simp] theorem finished_imePending : (finished arm n s).imePending = (!arm && s.imePending) := by
  obtain ⟨_, _, h⟩ := finished_fields arm n s
  rw [h]

@[simp] theorem finished_opCount : (finished arm n s).opCount = s.opCount + 1 := by
  obtain ⟨_, _, h⟩ := finished_fields arm n s
  rw [h]

@[simp] theorem finished_cycles : (finished arm n s).out.cycles = some n := by
  obtain ⟨_, _, h⟩ := finished_fields arm n s
  rw [h]

@[simp] theorem finished_writes : (finished arm n s).out.writes = s.out.writes := by
  obtain ⟨_, _, h⟩ := finished_fields arm n s
  rw [h]

@[simp] theorem finished_fault : (finished arm n s).fault = s.fault := by
  obtain ⟨_, _, h⟩ := finished_fields arm n s
  rw [h]

end

theorem State.finish_eq_finished (s : State) (arm : Bool) (n : Nat) : s.finish arm n = finished arm n s := by
  cases arm <;> rfl

/-! ### A step that raises -/

/-- `t` has a latched fault, and what the end of a step writes is as it was in `s`
(60_exceptions.md R206). -/
def State.RaisedFrom (s t : State) : Prop :=
  t.fault ≠ none ∧ t.opCount = s.opCount ∧ t.out.cycles = s.out.cycles ∧ t.ppu = s.ppu ∧
    t.out.rendered = s.out.rendered

theorem WritesOnly.raisedFrom {w : Writes} (ht : WritesOnly w s t) (hf : t.fault ≠ none) :
    s.RaisedFrom t := by
  obtain ⟨-, hppu, hcount, -, -, hcycles, hlines⟩ := ht.system_eq
  exact ⟨hf, hcount, hcycles, hppu, hlines⟩

theorem State.RaisedFrom.of_service {u : State} (hu : WritesOnly .service s u) (h : u.RaisedFrom t) :
    s.RaisedFrom t := by
  obtain ⟨-, hppu, hcount, -, -, hcycles, hlines⟩ := hu.system_eq
  obtain ⟨hf, hcount', hcycles', hppu', hlines'⟩ := h
  exact ⟨hf, hcount'.trans hcount, hcycles'.trans hcycles, hppu'.trans hppu, hlines'.trans hlines⟩

/-- Fetch and execution end in a raise, or they complete the well-formed instruction whose bytes stand at
`pc` (60_exceptions.md R200 parts 2 to 5). -/
theorem executeThen_cases (s : State) (arm : Bool) (spent : Nat) :
    ∃ t, executeThen arm spent s = .next t ∧ (s.RaisedFrom t ∨
      ∃ i u, i.wellFormed = true ∧ HoldsAt s s.pc i ∧ exec i s = .next u ∧ u.fault = none ∧
        t = finished (arm && !isDi i) (spent + s.launch.cost i (taken i s)) u) := by
  obtain ⟨e, he⟩ | ⟨i, hwf, hi, hk⟩ := fetchThen_cases s fun i =>
    afterExec (arm && !isDi i) (spent + s.launch.cost i (taken i s)) (exec i s)
  · exact ⟨_, he, .inl ((WritesOnly.raise (w := .service) e .start).raisedFrom nofun)⟩
  · obtain ⟨u, hu, -⟩ := EndsOrRaises.of_exec i s
    rw [executeThen, hk, hu]
    cases hfu : u.fault with
    | some r =>
      have hne : u.fault ≠ none := by simp [hfu]
      exact ⟨u, afterExec_of_raise (Option.isSome_iff_ne_none.mpr hne),
        .inl ((exec_writesOnly i s u hu).raisedFrom hne)⟩
    | none =>
      exact ⟨_, afterExec_of_done hfu, .inr ⟨i, u, hwf, hi, hu, hfu, State.finish_eq_finished _ _ _⟩⟩

/-- A Cpu step ends in a raise, or it completes an instruction: the one at `pc`, or after the dispatch of a
pending interrupt the one at its vector, with 20 cycles more (60_exceptions.md R200, R214). -/
theorem cpuStep_cases (hf : s.fault = none) :
    ∃ t, cpuStep s = .next t ∧ (s.begin.RaisedFrom t ∨
      ∃ w u i v arm spent, WritesOnly w s.begin u ∧ exec i u = .next v ∧ v.fault = none ∧ spent ≤ 20 ∧
        t = finished arm (spent + u.launch.cost i (taken i u)) v) := by
  unfold cpuStep
  split
  · next bit vector _ =>
    have hservice := serviceThen_writesOnly s.begin bit vector
    obtain ⟨u, e, hraise⟩ | ⟨u, hk, -, hfields⟩ := serviceThen_cases s.begin bit vector
    · exact ⟨_, hraise _, .inl ((hservice _ (hraise _)).raisedFrom nofun)⟩
    · have hu : WritesOnly .service s.begin u := hservice _ (hk _)
      have hfu : u.fault = none := by rw [hfields]; exact hf
      obtain ⟨t, ht, hraised | ⟨i, v, -, -, hv, hfv, rfl⟩⟩ :=
        executeThen_cases u false Config.dispatchCost
      · exact ⟨t, (hk _).trans ht, .inl (.of_service hu hraised)⟩
      · exact ⟨_, (hk _).trans ht, .inr ⟨_, u, i, v, _, _, hu, hv, hfv, le_refl 20, rfl⟩⟩
  · obtain ⟨t, ht, hraised | ⟨i, v, -, -, hv, hfv, rfl⟩⟩ :=
      executeThen_cases s.begin s.imePending 0
    · exact ⟨t, ht, .inl hraised⟩
    · exact ⟨_, ht, .inr ⟨.service, _, i, v, _, _, .start, hv, hfv, Nat.zero_le 20, rfl⟩⟩

/-! ### A turn of the Cpu -/

theorem holdsAt_begun {a : Word} {i : Instr} (h : HoldsAt s a i) : HoldsAt (begun s) a i :=
  (State.bytesAt_congr (s := begun s) (t := s) (fun _ => rfl) _ _).trans h

/-- With no interrupt pending a turn of the Cpu fetches at `pc` (60_exceptions.md R200). -/
theorem step_of_not_pending (hturn : CpuTurn s) (hp : s.pending = none) :
    step s = executeThen s.imePending 0 (begun s) := by
  have hp' : { s with hostPlan := s.hostPlan.tail }.pending = none := hp
  rw [step_of_cpuTurn hturn, cpuStep, hp']
  rfl

/-- With an interrupt pending a turn of the Cpu takes it first (60_exceptions.md R200, R214). -/
theorem step_of_pending {bit : Nat} {vector : Word} (hturn : CpuTurn s)
    (hp : s.pending = some (bit, vector)) :
    step s = serviceThen bit vector (begun s) (executeThen false 20) := by
  have hp' : { s with hostPlan := s.hostPlan.tail }.pending = some (bit, vector) := hp
  rw [step_of_cpuTurn hturn, cpuStep, hp']
  rfl

/-- A step that does not raise completes the instruction whose bytes stand at `pc`. -/
theorem executeThen_eq_next {i : Instr} {arm : Bool} {spent : Nat} (hwf : i.wellFormed = true)
    (hi : HoldsAt s s.pc i) (h : executeThen arm spent s = .next t) (hf : t.fault = none) :
    ∃ u n, exec i s = .next u ∧ u.fault = none ∧ t = finished (arm && decide (i ≠ .di)) n u := by
  cases hrec : i.key.recognized s.launch.dispatchExt with
  | false =>
    obtain ⟨hkey, -⟩ := (holdsAt_iff hwf).mp hi
    rw [executeThen_of_unrecognized hkey hrec] at h
    obtain rfl := Host.Outcome.next.inj h
    cases hf
  | true =>
    obtain ⟨u, hu, -⟩ := EndsOrRaises.of_exec i s
    obtain ⟨hraise, hdone⟩ := executeThen_completesAs hwf hrec hi arm spent u hu
    rw [h] at hraise hdone
    have hfu : u.fault = none := by
      by_contra hne
      exact hne (Host.Outcome.next.inj (hraise hne) ▸ hf)
    exact ⟨u, _, hu, hfu, Host.Outcome.next.inj (hdone hfu)⟩

/-- A step that takes an interrupt and does not raise completes the instruction at the vector. Its first two
or three writes are those of the entry to the handler (60_exceptions.md R200, R214). -/
theorem eq_finished_of_pending {bit : Nat} {vector : Word} (hturn : CpuTurn s)
    (hp : s.pending = some (bit, vector)) (h : step s = .next t) (hf : t.fault = none) :
    ∃ u i v n, HoldsAt u vector i ∧ i.wellFormed = true ∧
      u = { begun s with
        sp := s.sp - 2, pc := vector, ime := false, imePending := false, out := u.out,
        mem := s.applyWrites s.mem (v.out.writes.take (if s.launch.ackClearsIf then 3 else 2)) } ∧
      exec i u = .next v ∧ v.fault = none ∧ t = finished false n v := by
  rw [step_of_pending hturn hp] at h
  obtain ⟨u, e, hraise⟩ | ⟨u, hk, hlen, hu⟩ := serviceThen_cases (begun s) bit vector
  · rw [hraise] at h
    obtain rfl := Host.Outcome.next.inj h
    cases hf
  have hpc : u.pc = vector := by rw [hu]
  obtain ⟨ws, hout, hmem⟩ := (serviceThen_writesOnly (begun s) bit vector u (hk _)).exists_writes
  have hmem' : u.mem = s.applyWrites s.mem ws :=
    hmem.trans (State.applyWrites_congr (s := s) (t := begun s) (fun _ => rfl) _ _)
  have hlen' : ws.length = if s.launch.ackClearsIf then 3 else 2 := by
    rw [hout] at hlen
    exact hlen.trans (Nat.zero_add _)
  rw [hk] at h
  obtain ⟨t', ht', hraised | ⟨i, v, hwf, hi, hv, hfv, rfl⟩⟩ := executeThen_cases u false 20
  · obtain ⟨hraised, -⟩ := hraised
    exact absurd (Host.Outcome.next.inj (ht'.symm.trans h) ▸ hf) hraised
  · obtain ⟨ws', hout', -⟩ := (exec_writesOnly i u v hv).exists_writes
    refine ⟨u, i, v, _, hpc ▸ hi, hwf, ?_, hv, hfv, Host.Outcome.next.inj (h.symm.trans ht')⟩
    have htake : v.out.writes.take (if s.launch.ackClearsIf then 3 else 2) = ws := by
      rw [hout', hout, ← hlen']
      exact List.take_left
    rw [htake, ← hmem']
    exact hu

/-! ### The cycles -/

/-- Every row that is not ILLEGAL costs 4 to 24 cycles in the default table (70_reset_and_hazards.md
R250). -/
theorem defaultCost_bounds (i : Instr) (tk : Bool) :
    (∃ op, (i, op) ∈ illegalRows) ∨ 4 ≤ defaultCost i tk ∧ defaultCost i tk ≤ 24 := by
  cases i with
  | illegal10 | illegal76 | illegalD3 | illegalDB | illegalDD | illegalE3 | illegalE4 | illegalEB
  | illegalEC | illegalED | illegalF4 | illegalFC | illegalFD => exact .inl (by simp [illegalRows])
  | incR8 r | decR8 r | addAR8 r | adcAR8 r | subAR8 r | sbcAR8 r | andAR8 r | xorAR8 r | orAR8 r
  | cpAR8 r | rlcR8 r | rrcR8 r | rlR8 r | rrR8 r | slaR8 r | sraR8 r | swapR8 r | srlR8 r
  | bitBR8 _ r | resBR8 _ r | setBR8 _ r =>
    exact .inr (by cases r <;> exact of_decide_eq_true rfl)
  | jpCcN16 | jrCcE8 | callCcN16 | retCc => exact .inr (by cases tk <;> exact of_decide_eq_true rfl)
  | _ => exact .inr (of_decide_eq_true rfl)

/-- An instruction that does not raise is no ILLEGAL row, so with the default `COST` it costs 4 to 24 cycles
(70_reset_and_hazards.md R251). -/
theorem cost_bounds {i : Instr} (h : exec i s = .next t) (hf : t.fault = none) {p : Launch}
    (hp : p.costs = []) (tk : Bool) : 4 ≤ p.cost i tk ∧ p.cost i tk ≤ 24 := by
  have hcost : p.cost i tk = defaultCost i tk := by simp [Launch.cost, hp]
  obtain ⟨op, hi⟩ | hbounds := defaultCost_bounds i tk
  · rw [exec_illegalRow hi] at h
    obtain rfl := Host.Outcome.next.inj h
    cases hf
  · rwa [hcost]

/-! ### The two enables -/

/-- A return that re-enables sets `ime` and clears the pending enable, if it does not raise
(46_ext_control.md R176). -/
theorem returnEnabled_ensures (s : State) :
    Ensures (fun t => t.fault = none → t.ime = true ∧ t.imePending = false) (returnEnabled s) := by
  refine pop16Then_ensures ?_ ?_ fun lo hi _ _ => ?_
  · simp
  · simp
  · simp

/-- What an instruction that does not raise does to the enables (60_exceptions.md R215, R216). -/
theorem exec_enables {i : Instr} (h : exec i s = .next t) (hf : t.fault = none) :
    t.ime = (decide (i = .reti) || !decide (i = .di) && s.ime) ∧
    t.imePending = (decide (i = .ei) ||
      !decide (i = .di) && !decide (i = .reti) && s.imePending) := by
  by_cases hdi : i = .di
  · subst hdi
    obtain rfl := Host.Outcome.next.inj h
    exact ⟨rfl, rfl⟩
  by_cases hei : i = .ei
  · subst hei
    obtain rfl := Host.Outcome.next.inj h
    exact ⟨rfl, rfl⟩
  by_cases hreti : i = .reti
  · subst hreti
    exact returnEnabled_ensures s t h hf
  · have ht := exec_writesOnly i s t h
    have hmaster : i.writes.master = false := by simp [Instr.writes, hdi, hreti]
    have hpending : i.writes.pending = false := by simp [Instr.writes, hei]
    simp [hdi, hei, hreti, ht.ime_eq hmaster, ht.imePending_eq hpending hmaster]

end Sys2Proof.Machine
end

section
/-! The video controller (60_exceptions.md R226 to R230): one tick in each phase, runs of ticks that
compose, and where a line and a frame stand at each cycle. -/

namespace Sys2Proof.Machine

open Spec

/-! ### `advance` and the ticks it makes -/

/-- LCDC is never unmapped, so the display is on exactly where its bit 7 is set (20_memory.md R50). -/
theorem displayOn_iff (s : State) : DisplayOn s ↔ s.lcdc.getLsbD 7 = true := by
  have hread : s.busRead 0xFF40 = some s.lcdc := s.busRead_lcdc
  rw [DisplayOn, hread]
  exact ⟨fun ⟨_, hv, h⟩ => Option.some.inj hv ▸ h, fun h => ⟨_, rfl, h⟩⟩

theorem State.advance_of_displayOn {s : State} (h : DisplayOn s) (n : Nat) : s.advance n =
    { s with ppu := (s.ppu.run n).1,
             out := { s.out with rendered := s.out.rendered ++ (s.ppu.run n).2 } } :=
  if_pos ((displayOn_iff s).mp h)

theorem State.advance_of_not_displayOn {s : State} (h : ¬ DisplayOn s) (n : Nat) : s.advance n = s :=
  if_neg fun hon => h ((displayOn_iff s).mpr hon)

/-- What the ticks of the counter do is what `advance` does with the display on. -/
theorem advances_of_run {n : Nat} {p q : Ppu} {lines : List Nat} (h : p.run n = (q, lines)) :
    Advances n p q lines := by
  intro s hon hp
  rw [State.advance_of_displayOn hon, hp, h]

namespace Ppu

variable {p q r : Ppu} {mode : PpuMode} {line clock m n : Nat} {ls ls' : List Nat}

theorem run_one (p : Ppu) : p.run 1 = (p.tick.1, p.tick.2.toList) := by
  simp [run]

/-- Two runs are one of the sum (60_exceptions.md R228). -/
theorem run_add (h : p.run m = (q, ls)) (h' : q.run n = (r, ls')) : p.run (m + n) = (r, ls ++ ls') := by
  induction m generalizing p ls with
  | zero =>
    obtain ⟨rfl, rfl⟩ := Prod.mk.inj h
    rw [Nat.zero_add, h', List.nil_append]
  | succ m ih =>
    obtain ⟨hq, rfl⟩ := Prod.mk.inj h
    have htail := ih (p := p.tick.1) (Prod.ext hq rfl)
    rw [Nat.succ_add, run, htail, List.append_assoc]

/-! ### One tick in each phase (60_exceptions.md R227) -/

theorem tick_oamScan : tick ⟨.oamScan, line, clock⟩ =
    (if clock + 1 = 80 then ⟨.pixelTransfer, line, 80⟩ else ⟨.oamScan, line, clock + 1⟩, none) := by
  by_cases h : clock + 1 = 80 <;> simp [tick, Config.oamCycles, h]

theorem tick_pixelTransfer : tick ⟨.pixelTransfer, line, clock⟩ =
    if clock + 1 = 252 then (⟨.hblank, line, 252⟩, some line)
    else (⟨.pixelTransfer, line, clock + 1⟩, none) := by
  by_cases h : clock + 1 = 252 <;> simp [tick, Config.oamCycles, Config.transferCycles, h]

theorem tick_hblank : tick ⟨.hblank, line, clock⟩ =
    (if clock + 1 = 456 then ⟨if line + 1 = 144 then .vblank else .oamScan, line + 1, 0⟩
     else ⟨.hblank, line, clock + 1⟩, none) := by
  by_cases h : clock + 1 = 456 <;> simp [tick, Config.lineCycles, Config.visibleLines, h]

theorem tick_vblank : tick ⟨.vblank, line, clock⟩ =
    (if clock + 1 = 456 then (if line = 153 then ⟨.oamScan, 0, 0⟩ else ⟨.vblank, line + 1, 0⟩)
     else ⟨.vblank, line, clock + 1⟩, none) := by
  by_cases h : clock + 1 = 456 <;> by_cases hl : line = 153 <;>
    simp [tick, Config.lineCycles, Config.visibleLines, Config.vblankLines, h, hl]

/-! ### A phase -/

/-- Ticks that only count leave the phase and the line. -/
theorem run_of_counting (h : ∀ c, c < clock + n → tick ⟨mode, line, c⟩ = (⟨mode, line, c + 1⟩, none)) :
    run n ⟨mode, line, clock⟩ = (⟨mode, line, clock + n⟩, []) := by
  induction n with
  | zero => rfl
  | succ n ih =>
    have hlast : run 1 ⟨mode, line, clock + n⟩ = (⟨mode, line, clock + n + 1⟩, []) := by
      rw [run_one, h _ (by omega)]; rfl
    exact run_add (ih fun c hc => h c (by omega)) hlast

/-- A phase that counts up to a last tick. -/
theorem run_phase (h : ∀ c, c < clock + n → tick ⟨mode, line, c⟩ = (⟨mode, line, c + 1⟩, none))
    {event : Option Nat} (hlast : tick ⟨mode, line, clock + n⟩ = (q, event)) :
    run (n + 1) ⟨mode, line, clock⟩ = (q, event.toList) := by
  have hone : run 1 ⟨mode, line, clock + n⟩ = (q, event.toList) := by rw [run_one, hlast]
  exact run_add (run_of_counting h) hone

theorem tick_oamScan_of_lt {c : Nat} (h : c < 79) :
    tick ⟨.oamScan, line, c⟩ = (⟨.oamScan, line, c + 1⟩, none) := by
  rw [tick_oamScan, if_neg (by omega)]

theorem tick_pixelTransfer_of_lt {c : Nat} (h : c < 251) :
    tick ⟨.pixelTransfer, line, c⟩ = (⟨.pixelTransfer, line, c + 1⟩, none) := by
  rw [tick_pixelTransfer, if_neg (by omega)]

theorem tick_hblank_of_lt {c : Nat} (h : c < 455) :
    tick ⟨.hblank, line, c⟩ = (⟨.hblank, line, c + 1⟩, none) := by
  rw [tick_hblank, if_neg (by omega)]

theorem tick_vblank_of_lt {c : Nat} (h : c < 455) :
    tick ⟨.vblank, line, c⟩ = (⟨.vblank, line, c + 1⟩, none) := by
  rw [tick_vblank, if_neg (by omega)]

/-! ### A line (60_exceptions.md R230) -/

theorem run_oamScan (line : Nat) : run 80 ⟨.oamScan, line, 0⟩ = (⟨.pixelTransfer, line, 80⟩, []) :=
  run_phase (n := 79) (fun _ hc => tick_oamScan_of_lt (by omega)) tick_oamScan

theorem run_pixelTransfer (line : Nat) :
    run 172 ⟨.pixelTransfer, line, 80⟩ = (⟨.hblank, line, 252⟩, [line]) :=
  run_phase (n := 171) (fun _ hc => tick_pixelTransfer_of_lt (by omega)) tick_pixelTransfer

/-- Hblank ends the line wherever in it it began. -/
theorem run_hblank (line : Nat) (h : clock + n = 455) : run (n + 1) ⟨.hblank, line, clock⟩ =
    (⟨if line + 1 = 144 then .vblank else .oamScan, line + 1, 0⟩, []) := by
  have hlast : tick ⟨.hblank, line, clock + n⟩ =
      (⟨if line + 1 = 144 then .vblank else .oamScan, line + 1, 0⟩, none) := by
    rw [h, tick_hblank]; rfl
  exact run_phase (fun _ hc => tick_hblank_of_lt (by omega)) hlast

theorem run_to_hblank (line : Nat) : run 252 ⟨.oamScan, line, 0⟩ = (⟨.hblank, line, 252⟩, [line]) :=
  run_add (m := 80) (n := 172) (run_oamScan line) (run_pixelTransfer line)

/-- A visible line is rendered once, when the pixel transfer ends. -/
theorem run_line (line : Nat) : run 456 ⟨.oamScan, line, 0⟩ =
    (⟨if line + 1 = 144 then .vblank else .oamScan, line + 1, 0⟩, [line]) :=
  run_add (m := 252) (n := 204) (run_to_hblank line) (run_hblank line rfl)

/-- Where a visible line stands after `n` cycles. -/
theorem run_in_line (line : Nat) (hn : n < 456) : run n ⟨.oamScan, line, 0⟩ =
    (⟨if n < 80 then .oamScan else if n < 252 then .pixelTransfer else .hblank, line, n⟩,
      if n < 252 then [] else [line]) := by
  by_cases h₁ : n < 80
  · have h := run_of_counting (line := line) (clock := 0) (n := n) fun c hc =>
      tick_oamScan_of_lt (c := c) (by omega)
    rw [h, Nat.zero_add, if_pos h₁, if_pos (by omega)]
  by_cases h₂ : n < 252
  · obtain ⟨k, rfl⟩ := Nat.exists_eq_add_of_le (Nat.le_of_not_lt h₁)
    have h := run_of_counting (line := line) (clock := 80) (n := k) fun c hc =>
      tick_pixelTransfer_of_lt (c := c) (by omega)
    rw [run_add (run_oamScan line) h, if_neg h₁, if_pos h₂, if_pos h₂, List.nil_append]
  · obtain ⟨k, rfl⟩ := Nat.exists_eq_add_of_le (Nat.le_of_not_lt h₂)
    have h := run_of_counting (line := line) (clock := 252) (n := k) fun c hc =>
      tick_hblank_of_lt (c := c) (by omega)
    rw [run_add (run_to_hblank line) h, if_neg h₁, if_neg h₂, if_neg h₂, List.append_nil]

/-- A line of Vblank stays in Vblank (60_exceptions.md R230). -/
theorem run_in_vblank (line : Nat) (hn : n < 456) :
    run n ⟨.vblank, line, 0⟩ = (⟨.vblank, line, n⟩, []) := by
  rw [run_of_counting fun c hc => tick_vblank_of_lt (by omega), Nat.zero_add]

theorem run_vblank_line (line : Nat) : run 456 ⟨.vblank, line, 0⟩ =
    (if line = 153 then ⟨.oamScan, 0, 0⟩ else ⟨.vblank, line + 1, 0⟩, []) :=
  run_phase (n := 455) (fun _ hc => tick_vblank_of_lt (by omega)) tick_vblank

/-! ### A frame (60_exceptions.md R230) -/

/-- After `k` visible lines, lines 0 to `k - 1` are rendered in order; after the last one Vblank begins. -/
theorem run_visible (k : Nat) (hk : k ≤ 144) : run (456 * k) ⟨.oamScan, 0, 0⟩ =
    (⟨if k = 144 then .vblank else .oamScan, k, 0⟩, List.range k) := by
  induction k with
  | zero => rfl
  | succ k ih =>
    have hlines := ih (by omega)
    rw [if_neg (by omega)] at hlines
    rw [Nat.mul_succ, run_add hlines (run_line k), List.range_succ]

/-- After `k` lines of Vblank that are not its last. -/
theorem run_vblank (k : Nat) (hk : k ≤ 9) :
    run (456 * k) ⟨.vblank, 144, 0⟩ = (⟨.vblank, 144 + k, 0⟩, []) := by
  induction k with
  | zero => rfl
  | succ k ih =>
    have hline := run_vblank_line (144 + k)
    rw [if_neg (by omega)] at hline
    exact run_add (ih (by omega)) hline

theorem run_whole_vblank : run 4560 ⟨.vblank, 144, 0⟩ = (⟨.oamScan, 0, 0⟩, []) :=
  run_add (m := 456 * 9) (n := 456) (run_vblank 9 (le_refl 9)) (run_vblank_line 153)

theorem run_frame : run 70224 ⟨.oamScan, 0, 0⟩ = (⟨.oamScan, 0, 0⟩, List.range 144) :=
  run_add (m := 456 * 144) (n := 4560) (run_visible 144 (le_refl 144)) run_whole_vblank

end Ppu

end Sys2Proof.Machine
end


section
/-! The statements of 60_exceptions.md, from the lemmas above. -/

namespace Sys2Proof.Proofs

open Machine Spec

/-! ### The step -/

/-- Settles O8: the fetch answers the instruction, and its execution is followed by the end of the step. -/
theorem stepRunsDecodedInstruction : Obligations.StepRunsDecodedInstruction := by
  intro s i hturn hp hwf hrec h
  rw [step_of_not_pending hturn hp]
  exact executeThen_completesAs (s := begun s) hwf hrec (holdsAt_begun h) s.imePending 0

/-- Settles O14: the step is a fetch from the state with the last outputs gone. -/
theorem fetchFaultIsLatched : Obligations.FetchFaultIsLatched := by
  intro s hturn hp
  rw [step_of_not_pending hturn hp]
  exact fetchThen_raises (begun s) _

/-- Settles O12: a step looks at the latch first. -/
theorem latchedFaultHasNoStep : Obligations.LatchedFaultHasNoStep :=
  ⟨fun _ _ => step_of_latched, fun _ _ h => let ⟨hf, _⟩ := step_eq_next h; hf⟩

/-- Settles O22: by the definition of the step, which clears the port before it does anything else. -/
theorem outputPortIsNotRead : Obligations.OutputPortIsNotRead := fun _ _ => rfl

/-- Settles O23: an instruction ends or raises, a fetch and a dispatch do so too, and of the host's moves
only the write of the input cell can be refused. -/
theorem stepIsTotal : Obligations.StepIsTotal := by
  refine ⟨fun i s => ?_, fun s hf => ?_⟩
  · obtain ⟨t, ht, -⟩ := EndsOrRaises.of_exec i s
    exact ⟨t, ht⟩
  · have hcpu : CpuTurn s → ∃ t, step s = .next t := fun hturn => by
      obtain ⟨t, ht, -⟩ := cpuStep_cases (s := { s with hostPlan := s.hostPlan.tail }) hf
      exact ⟨t, (step_of_cpuTurn hturn).trans ht⟩
    match hp : s.hostPlan with
    | [] => exact .inl (hcpu ⟨hf, .inl hp⟩)
    | .run :: plan => exact .inl (hcpu ⟨hf, .inr ⟨plan, hp⟩⟩)
    | .disableBoot :: plan =>
      obtain ⟨hboot, -⟩ := bootRomUnmappedOnlyByHost
      exact .inl ⟨_, hboot s plan hf hp⟩
    | .writeInput v :: plan =>
      obtain ⟨-, hwrite⟩ := hostWritesOnlyInputCell s v plan hf hp
      cases hw : s.launch.hostWrites with
      | false => exact .inr ⟨v, plan, rfl, rfl⟩
      | true =>
        obtain ⟨t, ht, -⟩ := hwrite hw
        exact .inl ⟨t, ht⟩

/-- Settles O13: a raise comes before `pc` and the enables are written, and the other fields are no
instruction's. -/
theorem executeFaultIsPrecise : Obligations.ExecuteFaultIsPrecise := by
  intro i s t r hf h hr
  obtain ⟨t', ht', hend⟩ := EndsOrRaises.of_exec i s
  obtain rfl : t' = t := Host.Outcome.next.inj (ht'.symm.trans h)
  obtain ⟨-, hppu, hcount, -⟩ := (exec_writesOnly i s t' h).system_eq
  obtain hsame | ⟨u, k, rfl, hcause, hpc, hime, hpending⟩ := hend
  · rw [hsame, hf] at hr
    cases hr
  · obtain rfl := Option.some.inj hr
    exact ⟨hpc, hpc, hime, hpending, hppu, hcount, hcause⟩

/-- Settles O15: a step raises, which writes none of these, or it completes an instruction that is no ILLEGAL
row, with the 20 cycles of a dispatch or without. -/
theorem cyclesAndOperationCount : Obligations.CyclesAndOperationCount := by
  intro s t hturn h
  rw [step_of_cpuTurn hturn] at h
  obtain ⟨hrunning, -⟩ := hturn
  obtain ⟨t', ht', hcases⟩ := cpuStep_cases (s := { s with hostPlan := s.hostPlan.tail }) hrunning
  obtain rfl : t' = t := Host.Outcome.next.inj (ht'.symm.trans h)
  obtain ⟨hf, hraised⟩ | ⟨w, u, i, v, arm, spent, hu, hv, hfv, hspent, rfl⟩ := hcases
  · exact ⟨fun hnone => absurd hnone hf, fun _ => hraised⟩
  · obtain ⟨-, -, hcount, hlaunch, -⟩ := hu.system_eq
    obtain ⟨-, -, hcount', -⟩ := (exec_writesOnly i u v hv).system_eq
    refine ⟨fun _ => ⟨?_, _, finished_cycles .., fun hp => ?_⟩,
      fun hne => absurd ((finished_fault ..).trans hfv) hne⟩
    · rw [finished_opCount, hcount', hcount]; rfl
    · have hcost := cost_bounds hv hfv (p := u.launch) (by rw [hlaunch]; exact hp) (taken i u)
      omega

/-! ### Interrupts -/

/-- Settles O17: the first of the bits 0 to 4 that is set in both cells. -/
theorem pendingIsLowestEnabledRequest : Obligations.PendingIsLowestEnabledRequest := by
  intro s
  refine ⟨s.ieByte, s.ifByte, s.busRead_ie, s.busRead_if, ?_⟩
  have hlive : ∀ j, (j < 5 ∧ s.ieByte.getLsbD j = true ∧ s.ifByte.getLsbD j = true) ↔
      j < 5 ∧ (s.ieByte &&& s.ifByte &&& 0x1F).getLsbD j = true := fun j =>
    and_congr_right fun hj => by rw [getLsbD_masked _ _ hj, Bool.and_eq_true]
  simp only [hlive, State.pending_eq]
  cases s.ime with
  | false => simp
  | true =>
    rw [if_pos rfl]
    refine ⟨fun bit vector => ⟨fun h => ?_, ?_⟩, by simp [lowestBit_eq_none]⟩
    · obtain ⟨_, hlow, hpair⟩ := Option.map_eq_some_iff.mp h
      obtain ⟨rfl, rfl⟩ := Prod.mk.inj hpair
      obtain ⟨hbit, hmin⟩ := lowestBit_eq_some.mp hlow
      exact ⟨rfl, hbit, hmin, rfl⟩
    · rintro ⟨-, hbit, hmin, rfl⟩
      exact Option.map_eq_some_iff.mpr ⟨bit, lowestBit_eq_some.mpr ⟨hbit, hmin⟩, rfl⟩

/-- Settles O10: a push, the acknowledge, and the entry to the handler. -/
theorem takingAnInterrupt : Obligations.TakingAnInterrupt := serviceThen_afterPush

/-- Settles O9: the step is the dispatch, and then a fetch at the vector with no enable armed. -/
theorem stepTakesPendingInterrupt : Obligations.StepTakesPendingInterrupt := by
  intro s bit vector hturn hp
  rw [step_of_pending hturn hp]
  refine afterPush_imp (serviceThen_afterPush (begun s) bit vector _) fun u hu ⟨w, hack, hk⟩ =>
    ⟨w, hack, ?_⟩
  obtain ⟨-, hw⟩ := ack_fields hack
  have hlaunch : w.launch = s.launch := by rw [hw]; exact hu
  rw [hk]
  exact ⟨fun i hwf hrec hi => executeThen_completesAs hwf (hlaunch ▸ hrec) hi false 20,
    fun k hrec hkey => executeThen_of_unrecognized hkey (hlaunch ▸ hrec) false 20, fetchThen_raises _ _⟩

/-- Settles O16: the end of a step arms what was sampled at its start, after what its instruction did to the
enables. -/
theorem masterEnableStateMachine : Obligations.MasterEnableStateMachine := by
  refine ⟨coded_of_encode rfl rfl rfl (by decide) rfl rfl, coded_of_encode rfl rfl rfl (by decide) rfl rfl,
    fun _ => rfl, fun _ => rfl, fun _ => ⟨rfl, rfl⟩, fun _ _ => rfl, ?_, ?_⟩
  · intro s t i hturn hp hwf hi h hf
    rw [step_of_not_pending hturn hp] at h
    obtain ⟨v, n, hv, hfv, rfl⟩ := executeThen_eq_next hwf (holdsAt_begun hi) h hf
    obtain ⟨hime, hpending⟩ := exec_enables hv hfv
    have hime₀ : (begun s).ime = s.ime := rfl
    have hpending₀ : (begun s).imePending = s.imePending := rfl
    rw [finished_ime, finished_imePending, hime, hpending, hime₀, hpending₀]
    refine ⟨?_, ?_, ?_, ?_, ?_⟩
    · rintro rfl; simp
    · intro hdi harmed; simp [hdi, harmed]
    · rintro rfl; simp
    · rintro rfl harmed; simp [harmed]
    · intro hei hdi hreti harmed; simp [hei, hdi, hreti, harmed]
  · intro s t bit vector hturn hp h hf
    obtain ⟨u, i, v, n, hi, hwf, hu, hv, hfv, rfl⟩ := eq_finished_of_pending hturn hp h hf
    obtain ⟨hime, hpending⟩ := exec_enables hv hfv
    have hime₀ : u.ime = false := by rw [hu]
    have hpending₀ : u.imePending = false := by rw [hu]
    refine ⟨u, i, hi, hwf, ?_, ?_, ?_⟩
    · rw [finished_writes]; exact hu
    · simp [hime, hime₀]
    · simp [hpending, hpending₀]

/-! ### The dump -/

/-- Settles O29: the bytes one by one; an offset that video RAM has is its address from 0x8000 on. -/
theorem dumpShowsFaultedState : Obligations.DumpShowsFaultedState := by
  refine fun s => ⟨rfl, rfl, ?_, ?_, fun k hk => ?_, ?_, fun k hk hoff => ?_⟩
  · simp [State.dump, State.peek, List.range_succ]
  · simp [State.dump, State.peek]
  · simp [State.dump, State.peek, hk]
  · simp [State.dump, State.peekVram]
  · obtain ⟨-, -, hvram, -⟩ := regionTable s (BitVec.ofNat 16 (0x8000 + s.launch.dumpVramOffset + k))
    have hlt : 0x8000 + s.launch.dumpVramOffset + k < 2 ^ 16 := by omega
    rw [BitVec.toNat_ofNat, Nat.mod_eq_of_lt hlt] at hvram
    have hsub : 0x8000 + s.launch.dumpVramOffset + k - 0x8000 = s.launch.dumpVramOffset + k := by omega
    rw [hvram (by omega) (by omega), hsub]
    simp [State.dump, State.peekVram, Config.ramSize, hk, hoff]

/-! ### The video controller -/

/-- Settles O30: a run of one tick is the tick. -/
theorem videoTick : Obligations.VideoTick := by
  refine fun line clock => ⟨advances_of_run ?_, advances_of_run ?_, advances_of_run ?_, advances_of_run ?_⟩
  · rw [Ppu.run_one, Ppu.tick_oamScan]; rfl
  · rw [Ppu.run_one, Ppu.tick_pixelTransfer]
    split <;> rfl
  · rw [Ppu.run_one, Ppu.tick_hblank]
    by_cases hline : line + 1 = 144
    · rw [if_pos hline, if_pos hline, hline]; rfl
    · rw [if_neg hline, if_neg hline]; rfl
  · rw [Ppu.run_one, Ppu.tick_vblank]; rfl

/-- Settles O31: `advance` leaves LCDC alone, so two calls are two runs of ticks, which compose. -/
theorem advanceComposes : Obligations.AdvanceComposes := by
  refine ⟨fun s n hoff => State.advance_of_not_displayOn hoff n, fun s m n hon => ?_,
    advances_of_run (Ppu.run_oamScan 0), advances_of_run (Ppu.run_line 0)⟩
  have hon' : DisplayOn (s.advance m) := by
    rw [displayOn_iff] at hon ⊢
    obtain ⟨ppu, lines, h⟩ := s.advance_eq m
    rw [h]; exact hon
  have hrun := Ppu.run_add (p := s.ppu) (m := m) (n := n) rfl rfl
  refine ⟨hon', ?_⟩
  rw [State.advance_of_displayOn hon', State.advance_of_displayOn hon, State.advance_of_displayOn hon, hrun,
    ← List.append_assoc]

/-- Settles O32: a line is its three phases, a frame its 144 visible lines and the ten of Vblank. -/
theorem scanlineTiming : Obligations.ScanlineTiming := by
  refine ⟨fun line n _ hn => advances_of_run (Ppu.run_in_line line hn), fun line _ => advances_of_run ?_,
    fun line n _ _ hn => advances_of_run (Ppu.run_in_vblank line hn), advances_of_run Ppu.run_whole_vblank,
    advances_of_run Ppu.run_frame, advances_of_run (Ppu.run_hblank (n := 455) 0 rfl)⟩
  simpa using Ppu.run_line line

end Sys2Proof.Proofs
end
